-- ==== Sys2Proof/Word.lean ====
section
/-! DEFINITION. The numbers of the manual: bytes, generations and bus sequences are bits on a wire; stations, locks, tiers,
pins and lines are numbered things. -/

namespace Sys2Proof

/-- A byte of a cell or of the host port. -/
abbrev Byte := BitVec 8

/-- A station number, 0 to 31 (00_scope, Conventions). -/
abbrev Station := Fin 32

/-- A lock number, 0 to 63 (R1). -/
abbrev Lock := Fin 64

/-- A tier, 0 to 7 (section 1.2). -/
abbrev Tier := Fin 8

/-- A request input REQ0 to REQ3 (R134). -/
abbrev Pin := Fin 4

/-- A grant line GNT0 to GNT7 (R128). -/
abbrev GrantLine := Fin 8

/-- An arbitration class, 0 to 7; a lower value is preferred (R146). -/
abbrev ArbClass := Fin 8

/-- A lock's generation, wrapping modulo 65,536 (R5). -/
abbrev Generation := BitVec 16

/-- A bus sequence, wrapping modulo 16,777,216 (R29). -/
abbrev BusSeq := BitVec 24

/-- A set of stations: one mark for each of stations 0 to 31 (R27). -/
abbrev StationSet := Vector Bool 32

end Sys2Proof
end

