-- ==== Sys2Proof/Config.lean ====
section
/-! DEFINITION. What the manual leaves open: free values, constants without a body, so that nothing can be proved of them. -/

namespace Sys2Proof

/-- Which of several timer limits that fall at one moment is taken first, for the k-th such choice. The manual gives the
outcome of either order and fixes none (R54, R61, R68, R131). Free value; log entry 2; safe. -/
opaque Config.pick : Nat → Nat

/-- The station that a byte above 31 names in a page 0 read by a station in WAIT_ROUND. The manual states none (R82, R204
give no range check). Free value; log entry 8; safe. -/
opaque Config.foreignStation : Byte → Station

/-- Whether a station in WAIT_ROUND goes on to judge a page 0 payload that holds a station byte above 31, or disregards
it. Free value; log entry 8; safe. -/
opaque Config.foreignPageRead : List Byte → Bool

end Sys2Proof
end

