-- ==== Sys2Proof/Syntax.lean ====
section
/-! DEFINITION. The commands of the block: one constructor for each row of spec/opcode_table.json, in the table's order. -/

namespace Sys2Proof

/-- One cell as this station read it at the sample points: 8 data bits and the turn bit (R161). A turn bit that is true
is recessive. -/
structure Cell where
  data : Byte
  turn : Bool
  deriving DecidableEq, Repr

/-- What this station read of a frame from its arbitration cell to its gap bit: the cells in order, and the gap bit, true
when recessive (R162). -/
structure Reading where
  cells : List Cell
  gap   : Bool
  deriving DecidableEq, Repr

/-- The commands. A frame command says what became of the frame on the bus (the constructor) and carries what this station
read of it (log entry 9). A timer command says that the timer has reached its limit (log entry 3). -/
inductive Instr where
  | hardReset
  | hardResetEnd (straps : Station) (rate : BitVec 2)
  | configureCommand (record : Vector Byte 20)
  | joinCommand
  | leaveCommand
  | resetCommand
  | claimCommand (lock mode limit : Byte)
  | yieldCommand (lock : Byte)
  | withdrawCommand (lock : Byte)
  | renewCommand (lock : Byte)
  | readLockCommand (lock : Byte)
  | readRosterCommand
  | readHoldsCommand
  | readNoticeCommand
  | readStatusCommand
  | unknownCommand (code : Byte)
  | transactionTruncated
  | readNoticeCompletion
  | readStatusCompletion
  | busOpportunity
  | startBitConfirmed
  | unconfirmedStartBit
  | arbitrationLost
  | frameLost (cells : List Cell)
  | endFault
  | frameVoided (read : Reading)
  | claimFrame (read : Reading)
  | yieldFrame (read : Reading)
  | withdrawFrame (read : Reading)
  | evictFrame (read : Reading)
  | departFrame (read : Reading)
  | beaconFrame (read : Reading)
  | syncAskFrame (read : Reading)
  | pageFrame (read : Reading)
  | enrolFrame (read : Reading)
  | foundFrame (read : Reading)
  | ownContactReachesP
  | beaconPromoted
  | fenceLimit
  | absenceLimit (member : Station)
  | stranding
  | foundingWait
  | roundTimeout
  | holdExpiry (slot : Tier)
  | guardElapsed (line : GrantLine)
  | rawLevelChange (pin : Pin) (level : Bool)
  | stableLevelChange (pin : Pin)
  | busIdle
  | transactionBegin
  | transactionEnd
  deriving DecidableEq, Repr

end Sys2Proof
end

