-- ==== Sys2Proof/Machine/State.lean ====
section
/-! DEFINITION. The state of the station, one record for each block that owns state (00_scope, Block Overview), the stops, and
the state after a hard reset. -/

namespace Sys2Proof.Machine

/-- No rule of the manual makes the station stop with a fault: line faults, drops and refusals are effects on State (log
entry 25). The type has no constructor, so no step ends in a fault. Safe. -/
inductive Fault where
  deriving DecidableEq, Repr

/-- Why a command has no meaning. -/
inductive Refusal where
  /-- Raised by an arm of exec whose command is not modelled yet; no arm raises it now. Safe. -/
  | notModelled (mnemonic : String)
  deriving DecidableEq, Repr

/-! ### Names in capitals -/

/-- The ten frame kinds (R35). -/
inductive Kind where
  | claim | yield | withdraw | evict | depart | beacon | syncAsk | page | enrol | found
  deriving DecidableEq, Repr

/-- The mode of a claim: WAIT or TRY (section 1.4). -/
inductive Mode where
  | wait | tryOnly
  deriving DecidableEq, Repr

/-- The reason of a YIELD (section 1.6). -/
inductive Reason where
  | released | expired
  deriving DecidableEq, Repr

/-- The outcome names of R10. -/
inductive OutcomeName where
  | granted | queued | refusedBusy | refusedFull | alreadyHeld | alreadyWaiting | yielded | stale | withdrawn | notWaiting
  deriving DecidableEq, Repr

/-- The ten station states (chapter Joining the Bus). -/
inductive StationState where
  | unconfigured | ready | listen | founding | asking | waitRound | collecting | enrolling | member | departing
  deriving DecidableEq, Repr

/-- The five line states (R163). -/
inductive LineState where
  | seeking | idle | sending | receiving | closing
  deriving DecidableEq, Repr

/-- The phases of a host port transaction (R181). -/
inductive Phase where
  | idle | command | arguments | turnaround | result | filler
  deriving DecidableEq, Repr

/-- The states of a hold record (R102). -/
inductive RecordState where
  | claiming | claimCancel | waiting | withdrawing | held | yielding
  deriving DecidableEq, Repr

/-- Who made a claim: the host, or a request input (R102). -/
inductive Origin where
  | host
  | req (pin : Pin)
  deriving DecidableEq, Repr

/-- The fence causes (R61). -/
inductive FenceCause where
  | contact | quorum
  deriving DecidableEq, Repr

/-- How a member left the roster (R38). -/
inductive LeftCause where
  | evicted | departed
  deriving DecidableEq, Repr

/-- The 26 notice kinds (R197, R208). -/
inductive NoticeKind where
  | granted | queued | refusedBusy | refusedFull | withdrawn | tooLate | yielded | expired | claimFailed | revoked | pinRefused
  | founded | joined | joinRefused | joinFailed | departed | ousted | desynced | stranded | lineMute | duplicateStation
  | fenced | unfenced | resetDone | peerJoined | peerLeft
  deriving DecidableEq, Repr

/-- The qualifier of a notice (R196, R197): none, the stale mark of YIELDED, a fence cause, or the cause of PEER_LEFT. -/
inductive Qualifier where
  | none
  | stale (mark : Bool)
  | fence (cause : FenceCause)
  | left (cause : LeftCause)
  deriving DecidableEq, Repr

/-- The result codes (section 9.1, R206). -/
inductive ResultCode where
  | ok | state | order | pending | held | notHeld | notWaiting | pinBound | range | locked | empty | unknown
  deriving DecidableEq, Repr

/-- The host commands the port knows (R206). -/
inductive HostCommand where
  | configure | join | leave | reset | claim | yield | withdraw | renew | readLock | readRoster | readHolds | readNotice
  | readStatus
  deriving DecidableEq, Repr

/-- The beacon period code, which selects P (R51, R203). -/
inductive BeaconPeriod where
  | ms5 | ms10 | ms20 | ms50
  deriving DecidableEq, Repr

/-! ### Frames -/

/-- A frame as understood from its cells: the arbitration class and sender, the kind and flags, the BSEQ field and the payload
(R162, section 10.1). -/
structure Frame where
  cls     : ArbClass
  sender  : Station
  kind    : Kind
  flags   : BitVec 4
  busSeq  : BusSeq
  payload : List Byte
  deriving DecidableEq, Repr

/-! ### The replica (Apply Unit and Claim Table) -/

/-- A lock entry (R1). -/
structure LockEntry where
  holder     : Option Station
  generation : Generation
  waiters    : List Station
  deriving DecidableEq, Repr

/-- A cleared lock entry (R6). -/
def LockEntry.cleared : LockEntry := { holder := none, generation := 0, waiters := [] }

/-- The transfer record (R28); running is the state RUNNING, its absence IDLE. -/
structure TransferRecord where
  running     : Bool
  feeder      : Station
  round       : Byte
  nextPage    : Nat
  roundList   : List Station
  pendingList : List Station
  deriving DecidableEq, Repr

/-- The cleared transfer record (R28). -/
def TransferRecord.cleared : TransferRecord :=
  { running := false, feeder := 0, round := 0, nextPage := 0, roundList := [], pendingList := [] }

/-- The replica (R27). -/
structure Replica where
  busSeq   : BusSeq
  roster   : StationSet
  table    : Vector LockEntry 64
  transfer : TransferRecord
  deriving DecidableEq, Repr

/-- The cleared replica (R30). -/
def Replica.cleared : Replica :=
  { busSeq := 0, roster := Vector.replicate 32 false, table := Vector.replicate 64 LockEntry.cleared,
    transfer := TransferRecord.cleared }

/-- The Apply Unit: the replica and the mismatch streak (R27, R39). -/
structure ApplyUnit where
  replica       : Replica
  streakCount   : Nat
  streakSenders : StationSet
  deriving DecidableEq, Repr

/-- The Apply Unit with a cleared replica and streak (R30, R39). -/
def ApplyUnit.cleared : ApplyUnit :=
  { replica := Replica.cleared, streakCount := 0, streakSenders := Vector.replicate 32 false }

/-! ### Presence Monitor -/

/-- The presence state (section 3.2). Times are in milliseconds (log entry 1); none is a timer that is not kept. -/
structure PresenceMonitor where
  ownContact : Nat
  beaconAge  : Option Nat
  silence    : Vector (Option Nat) 32
  contact    : Bool
  quorum     : Bool
  attained   : Bool
  stranding  : Option Nat
  deriving DecidableEq, Repr

/-- The idle values of the presence state (R73). -/
def PresenceMonitor.idle : PresenceMonitor :=
  { ownContact := 0, beaconAge := none, silence := Vector.replicate 32 none, contact := false, quorum := false,
    attained := false, stranding := none }

/-! ### Station Controller and Transfer Controller -/

/-- The configuration record (R186): the bus profile (period and quorum), the guard time in milliseconds, the auto-rejoin flag,
the grant and request bindings, and the request hold limits. -/
structure ConfigRecord where
  period     : BeaconPeriod
  quorum     : Nat
  guardTime  : Nat
  autoRejoin : Bool
  grants     : Vector (Option Lock) 8
  requests   : Vector (Option Lock) 4
  limits     : Vector Byte 4
  deriving DecidableEq, Repr

/-- The Station Controller (R74). -/
structure StationController where
  state         : StationState
  config        : Option ConfigRecord
  foundingTimer : Nat
  roundTimer    : Nat
  askCount      : Nat
  staleMark     : Bool
  deriving DecidableEq, Repr

/-- The Transfer Controller: the collected count (R86) and the uncollected marks of the lock entries (R6, R84). -/
structure TransferController where
  collected   : Nat
  uncollected : Vector Bool 64
  deriving DecidableEq, Repr

/-- No page collection in progress: the count at 0 and every mark clear. That these are the values at reset and outside the voting
states, and that ENROLLING and the states after it keep the count at 16, is the model's choice: R86 gives the count and the marks
from the entry to COLLECTING only (log entry 34). -/
def TransferController.cleared : TransferController := { collected := 0, uncollected := Vector.replicate 64 false }

/-! ### Request Tracker -/

/-- A hold record (R102), with its hold timer in milliseconds (none when not running, R120) and the reason of a YIELD
deferred by R119 (none when no YIELD is deferred). -/
structure HoldRecord where
  lock          : Lock
  origin        : Origin
  state         : RecordState
  holdLimit     : Byte
  generation    : Option Generation
  withdrawAsked : Bool
  holdTimer     : Option Nat
  deferred      : Option Reason
  deriving DecidableEq, Repr

/-- The hold list: 8 tier slots (R102). -/
structure RequestTracker where
  slots : Vector (Option HoldRecord) 8
  deriving DecidableEq, Repr

/-- The empty hold list (R103). -/
def RequestTracker.empty : RequestTracker := { slots := Vector.replicate 8 none }

/-! ### Outbound Queue -/

/-- The kind of an entry with its contents fixed at placement (R142). -/
inductive Content where
  | claim (lock : Lock) (mode : Mode)
  | yield (lock : Lock) (generation : Generation) (reason : Reason)
  | withdraw (lock : Lock)
  | evict (target : Station)
  | depart
  | beacon
  | syncAsk
  | page
  | enrol
  | found
  deriving DecidableEq, Repr

/-- An entry of the outbound queue (R142). Its age is its place in the queue's list (log entry 18); its owner is computed from
its contents. -/
structure Entry where
  content    : Content
  cls        : ArbClass
  contending : Bool
  voids      : Nat
  discard    : Bool
  deriving DecidableEq, Repr

/-- The outbound queue, oldest entry first (R144). -/
structure OutboundQueue where
  entries : List Entry
  deriving DecidableEq, Repr

/-! ### Line Controller -/

/-- The Line Controller (R163, R175 to R177, R179); sending holds the values filled at the start bit of the attempt under way
(R149). -/
structure LineController where
  state         : LineState
  sending       : Option Frame
  cells         : List Cell
  crc           : BitVec 16
  recessive     : Nat
  collisions    : Nat
  rxFaults      : Nat
  faultSenders  : StationSet
  faultUnknown  : Bool
  txFaults      : Nat
  deriving DecidableEq, Repr

/-- The Line Controller at the end of a hard reset (R179). DESIGN CHOICE: the count of recessive bits, for which R163 and R179 give no value
at a reset, is 0, the receive cell buffer is empty and the CRC register 0xFFFF (log entry 19). -/
def LineController.reset : LineController :=
  { state := .seeking, sending := none, cells := [], crc := 0xFFFF, recessive := 0, collisions := 0, rxFaults := 0,
    faultSenders := Vector.replicate 32 false, faultUnknown := false, txFaults := 0 }

/-! ### Grant Line Unit and Request Input Unit -/

/-- The guard of a grant line (R130); a running guard holds its time in milliseconds. -/
inductive Guard where
  | stopped
  | running (time : Nat)
  | elapsed
  deriving DecidableEq, Repr

/-- The Grant Line Unit: a guard for each line. The bindings are those of the configuration record (log entry 21). -/
structure GrantUnit where
  guards : Vector Guard 8
  deriving DecidableEq, Repr

/-- Every guard stopped (R130). -/
def GrantUnit.stopped : GrantUnit := { guards := Vector.replicate 8 .stopped }

/-- A request input (R135, R136): the raw level of the pin, the stable level, the debounce timer in milliseconds (none when
stopped) and the ignore mark. A level that is true is asserted. -/
structure RequestInput where
  raw      : Bool
  stable   : Bool
  debounce : Option Nat
  ignored  : Bool
  deriving DecidableEq, Repr

/-- The Request Input Unit: REQ0 to REQ3. -/
structure RequestInputs where
  inputs : Vector RequestInput 4
  deriving DecidableEq, Repr

/-- Request inputs deasserted, as unconnected pins read (section 10.7; log entry 6). -/
def RequestInputs.reset : RequestInputs :=
  { inputs := Vector.replicate 4 { raw := false, stable := false, debounce := none, ignored := false } }

/-! ### Host Port -/

/-- A notice record (R196). -/
structure Notice where
  kind       : NoticeKind
  lock       : Option Lock
  station    : Option Station
  generation : Option Generation
  qualifier  : Qualifier
  busSeq     : BusSeq
  deriving DecidableEq, Repr

/-- The Host Port (R181, R182, R194, R198): the SSn pin (selected when low), the transaction phase and the count of its SCK cycles
since SSn fell, the command recognised by its code and taken from TURNAROUND on, the result held for the result phase, the notice
queue, the flags and the late-overflow mark. -/
structure HostPort where
  selected     : Bool
  phase        : Phase
  bits         : Nat
  taken        : Option HostCommand
  resultCode   : Option ResultCode
  resultData   : List Byte
  notices      : List Notice
  overflow     : Bool
  truncated    : Bool
  lateOverflow : Bool
  deriving DecidableEq, Repr

/-- The Host Port at the end of a hard reset, with SSn high (R200; log entry 6). The bit count at 0, with no command and no result held,
is the model's choice: R200 lists no value for them, and R181 starts the count at the fall of SSn (log entry 35). -/
def HostPort.reset : HostPort :=
  { selected := false, phase := .idle, bits := 0, taken := none, resultCode := none, resultData := [], notices := [],
    overflow := false, truncated := false, lateOverflow := false }

/-! ### The station -/

/-- The state of the station. inReset is a hard reset in progress (R209); station and bitRate are the sampled straps; choices
counts the choices made among limits that fall together (log entry 2); pending is the queue of waiting commands. -/
structure State where
  inReset : Bool
  station : Station
  bitRate : BitVec 2
  lc      : LineController
  au      : ApplyUnit
  pm      : PresenceMonitor
  sc      : StationController
  tc      : TransferController
  rt      : RequestTracker
  oq      : OutboundQueue
  gl      : GrantUnit
  ri      : RequestInputs
  hp      : HostPort
  choices : Nat
  pending : List Instr
  deriving DecidableEq, Repr

/-- The Station Controller after a hard reset (R74). -/
def StationController.reset : StationController :=
  { state := .unconfigured, config := none, foundingTimer := 0, roundTimer := 0, askCount := 0, staleMark := false }

/-- The station at the end of a hard reset (R30, R73, R74, R125, R130, R135, R136, R145, R179, R200), its straps sampled from
unconnected pins (section 10.7; log entry 5). -/
def State.reset : State :=
  { inReset := false, station := 0, bitRate := 0, lc := .reset, au := .cleared, pm := .idle, sc := .reset, tc := .cleared,
    rt := .empty, oq := { entries := [] }, gl := .stopped, ri := .reset, hp := .reset, choices := 0, pending := [] }

end Sys2Proof.Machine
end

