-- ==== Sys2Proof/Machine/Ops.lean ====
section
/-! DEFINITION. The operations over State that every block shares: tables of fixed size, sets of stations, the replacement of
one block's record, notices (R198) and the entries of the outbound queue (R142, R153). -/

namespace Sys2Proof.Machine

variable {α : Type} {n : Nat}

/-- The table with x at place i. -/
def putAt (v : Vector α n) (i : Fin n) (x : α) : Vector α n := v.set i.val x i.isLt

/-- The table whose place i holds f i. -/
def tabulate (f : Fin n → α) : Vector α n := ⟨(List.ofFn f).toArray, by simp⟩

/-! ### Sets of stations -/

/-- No station. -/
def noStations : StationSet := Vector.replicate 32 false

/-- The set with a station added. -/
def addStation (m : StationSet) (t : Station) : StationSet := putAt m t true

/-- The set with a station removed. -/
def dropStation (m : StationSet) (t : Station) : StationSet := putAt m t false

/-- The stations of a set, in ascending order. -/
def stationsOf (m : StationSet) : List Station := (List.finRange 32).filter fun t => m[t]

/-- The number of stations in a set; of a roster, the roster count (R27). -/
def countOf (m : StationSet) : Nat := (stationsOf m).length

/-- The lowest-numbered station of a set. -/
def lowestOf (m : StationSet) : Option Station := (stationsOf m).head?

/-- The set of the stations of a list. -/
def setOfList (l : List Station) : StationSet := tabulate fun t => decide (t ∈ l)

/-! ### One block's record replaced -/

/-- The state with another Line Controller. -/
def State.withLc (s : State) (x : LineController) : State := { s with lc := x }

/-- The state with another Apply Unit. -/
def State.withAu (s : State) (x : ApplyUnit) : State := { s with au := x }

/-- The state with another replica. -/
def State.withReplica (s : State) (x : Replica) : State := { s with au := { s.au with replica := x } }

/-- The state with another Presence Monitor. -/
def State.withPm (s : State) (x : PresenceMonitor) : State := { s with pm := x }

/-- The state with another Station Controller. -/
def State.withSc (s : State) (x : StationController) : State := { s with sc := x }

/-- The state with another Transfer Controller. -/
def State.withTc (s : State) (x : TransferController) : State := { s with tc := x }

/-- The state with another hold list. -/
def State.withRt (s : State) (x : RequestTracker) : State := { s with rt := x }

/-- The state with other entries in the outbound queue. -/
def State.withEntries (s : State) (x : List Entry) : State := { s with oq := { entries := x } }

/-- The state with another Grant Line Unit. -/
def State.withGl (s : State) (x : GrantUnit) : State := { s with gl := x }

/-- The state with other request inputs. -/
def State.withRi (s : State) (x : RequestInputs) : State := { s with ri := x }

/-- The state with another Host Port. -/
def State.withHp (s : State) (x : HostPort) : State := { s with hp := x }

/-! ### Notices -/

/-- A notice placed in the notice queue: appended, or refused for a full queue with OVERFLOW and the late-overflow mark set
(R198). -/
def placeNotice (x : Notice) (s : State) : State :=
  if s.hp.notices.length < 16 then s.withHp { s.hp with notices := s.hp.notices ++ [x] }
  else s.withHp { s.hp with overflow := true, lateOverflow := true }

/-- A lock notice, carrying the bus sequence the station holds (R126, R196). -/
def lockNotice (k : NoticeKind) (l : Lock) (g : Option Generation) (q : Qualifier) (s : State) : State :=
  placeNotice { kind := k, lock := some l, station := none, generation := g, qualifier := q, busSeq := s.au.replica.busSeq } s

/-- A notice that names no lock: a station, peer or fence notice (R196, R197). -/
def stationNotice (k : NoticeKind) (t : Option Station) (q : Qualifier) (s : State) : State :=
  placeNotice { kind := k, lock := none, station := t, generation := none, qualifier := q, busSeq := s.au.replica.busSeq } s

/-! ### The outbound queue -/

/-- Who placed an entry and is told of its end (R142, R143). -/
inductive Owner where
  | slot (tier : Tier)
  | beacon
  | evict
  | page
  | joining
  deriving DecidableEq, Repr

/-- The tier of a lock: its number divided by 8, rounded down (section 1.2). -/
def tierOf (l : Lock) : Tier := Fin.ofNat 8 (l.val / 8)

/-- The owner of an entry (R143). -/
def ownerOf : Content → Owner
  | .claim l _ => .slot (tierOf l)
  | .yield l _ _ => .slot (tierOf l)
  | .withdraw l => .slot (tierOf l)
  | .evict _ => .evict
  | .beacon => .beacon
  | .page => .page
  | .depart => .joining
  | .syncAsk => .joining
  | .enrol => .joining
  | .found => .joining

/-- The frame kind of an entry. -/
def kindOf : Content → Kind
  | .claim _ _ => .claim
  | .yield _ _ _ => .yield
  | .withdraw _ => .withdraw
  | .evict _ => .evict
  | .depart => .depart
  | .beacon => .beacon
  | .syncAsk => .syncAsk
  | .page => .page
  | .enrol => .enrol
  | .found => .found

/-- The arbitration class of an entry at placement (R146). -/
def classOf : Content → ArbClass
  | .evict _ => 0
  | .yield _ _ _ => 2
  | .withdraw _ => 3
  | .depart => 3
  | .page => 4
  | .claim _ _ => 5
  | .syncAsk => 6
  | .found => 6
  | .enrol => 6
  | .beacon => 7

/-- The kinds that are abandoned at their sixteenth void (R151). -/
def abandonable : Content → Bool
  | .claim _ _ => true
  | .syncAsk => true
  | .found => true
  | .enrol => true
  | _ => false

/-- A request entry: one of the Request Tracker (R143). -/
def isRequest (c : Content) : Bool :=
  match ownerOf c with
  | .slot _ => true
  | _ => false

/-- The entry as placed: QUEUED, with its kind's class, no voids and no discard mark (R142, R146). -/
def newEntry (c : Content) : Entry := { content := c, cls := classOf c, contending := false, voids := 0, discard := false }

/-- An entry placed in the outbound queue, younger than every entry there (R144). -/
def placeEntry (c : Content) (s : State) : State := s.withEntries (s.oq.entries ++ [newEntry c])

/-- Whether an owner has an entry in the outbound queue, in either state. -/
def hasEntry (o : Owner) (s : State) : Bool := s.oq.entries.any fun e => ownerOf e.content == o

/-- The QUEUED entries that satisfy p removed, at their owner's request (R153). -/
def cancelQueued (p : Entry → Bool) (s : State) : State :=
  s.withEntries (s.oq.entries.filter fun e => e.contending || !p e)

/-- The purge of the whole queue: QUEUED entries removed, a CONTENDING entry takes a discard mark (R154, R155). -/
def purgeAll (s : State) : State :=
  s.withEntries ((s.oq.entries.filter (·.contending)).map fun e => { e with discard := true })

/-- The entry of the attempt under way. -/
def contendingEntry (s : State) : Option Entry := s.oq.entries.find? (·.contending)

/-- The CONTENDING entry removed from the queue (R152, R151). -/
def removeContending (s : State) : State := s.withEntries (s.oq.entries.filter fun e => !e.contending)

/-- The CONTENDING entry returned to QUEUED with a void count, keeping its class and age (R150, R151). -/
def returnContending (voids : Nat) (s : State) : State :=
  s.withEntries (s.oq.entries.map fun e => if e.contending then { e with contending := false, voids := voids } else e)

end Sys2Proof.Machine
end

