-- ==== Sys2Proof/Machine/Cells.lean ====
section
/-! DEFINITION. Cells, the CRC, and the bytes of a frame: how a frame is laid out (R161, R162, R201 to R204) and what a receiver
makes of the cells it reads (R168 to R170, R205). -/

namespace Sys2Proof.Machine

/-- The cell of a byte, with the turn bit the sender forms: the complement of the last data bit (R161). -/
def cellOf (b : Byte) : Cell := { data := b, turn := !b.getLsbD 0 }

/-- The turn check of a cell (R161, R168). -/
def turnHolds (c : Cell) : Bool := c.turn == !c.data.getLsbD 0

/-- One data bit into the CRC register (R170). -/
def crcBit (reg : BitVec 16) (bit : Bool) : BitVec 16 :=
  if reg.getLsbD 15 != bit then (reg <<< 1) ^^^ 0x1021 else reg <<< 1

/-- The data bits of a byte, most significant first. -/
def bitsOf (b : Byte) : List Bool :=
  [b.getLsbD 7, b.getLsbD 6, b.getLsbD 5, b.getLsbD 4, b.getLsbD 3, b.getLsbD 2, b.getLsbD 1, b.getLsbD 0]

/-- One byte into the CRC register, most significant bit first (R170). -/
def crcByte (reg : BitVec 16) (b : Byte) : BitVec 16 := (bitsOf b).foldl crcBit reg

/-- The CRC of the data bytes of a frame, from the preset 0xFFFF (R170). -/
def crcOf (l : List Byte) : BitVec 16 := l.foldl crcByte 0xFFFF

/-- The kind codes (R202). -/
def kindCode : Kind → Nat
  | .claim => 1
  | .yield => 2
  | .withdraw => 3
  | .evict => 4
  | .depart => 5
  | .beacon => 6
  | .syncAsk => 7
  | .page => 8
  | .enrol => 9
  | .found => 10

/-- The kind of a kind code; 0 and 11 to 15 are no kind (R202). -/
def kindOfCode : Nat → Option Kind
  | 1 => some .claim
  | 2 => some .yield
  | 3 => some .withdraw
  | 4 => some .evict
  | 5 => some .depart
  | 6 => some .beacon
  | 7 => some .syncAsk
  | 8 => some .page
  | 9 => some .enrol
  | 10 => some .found
  | _ => none

/-- The code of a station number on a wire. -/
def stationByte (t : Station) : Byte := BitVec.ofNat 8 t.val

/-- A station number or the code for none (R201). -/
def optStationByte : Option Station → Byte
  | some t => stationByte t
  | none => 0xFF

/-- The bytes of a bus sequence, most significant first (R201). -/
def busSeqBytes (q : BusSeq) : List Byte := [q.extractLsb' 16 8, q.extractLsb' 8 8, q.extractLsb' 0 8]

/-- The bytes of a generation, most significant first. -/
def generationBytes (g : Generation) : List Byte := [g.extractLsb' 8 8, g.extractLsb' 0 8]

/-- The data bytes of a frame before its CRC: arbitration, kind, length, BSEQ and payload (R162, section 10.1). -/
def frameBytes (f : Frame) : List Byte :=
  [BitVec.ofNat 8 (f.cls.val * 32 + f.sender.val), BitVec.ofNat 8 (kindCode f.kind * 16 + f.flags.toNat),
    BitVec.ofNat 8 f.payload.length] ++ busSeqBytes f.busSeq ++ f.payload

/-- The cells of a frame: its data bytes and the two CRC cells (R162). -/
def frameCells (f : Frame) : List Cell :=
  (frameBytes f ++ generationBytes (crcOf (frameBytes f))).map cellOf

/-- The bits of a cell on the line: 8 data bits and the turn bit (R161). -/
def cellBits (c : Cell) : List Bool := bitsOf c.data ++ [c.turn]

/-- The bits of a frame on the line from its start bit to its last end bit, true for recessive, with its verdict bit (R162). -/
def lineBits (f : Frame) (verdict : Bool) : List Bool :=
  false :: (frameCells f).flatMap cellBits ++ true :: verdict :: List.replicate 9 true

/-- The data bytes that the CRC covers among the cells read of a frame: those of the arbitration cell through the payload, as many as
the length cell says, or all of them where the frame was lost before (R170). -/
def coveredBytes (l : List Cell) : List Byte :=
  match l with
  | _ :: _ :: length :: _ => (l.map (·.data)).take (6 + length.data.toNat)
  | _ => l.map (·.data)

/-- What a station reads of a frame that nothing disturbs. -/
def readingOf (f : Frame) : Reading := { cells := frameCells f, gap := true }

/-- The byte at a place of a payload, counted from 0; 0 beyond its end. -/
def byteAt (p : List Byte) (i : Nat) : Byte := p.getD i 0

/-- The size of a page 0 agrees with the counts it carries (R204, R205). -/
def pageZeroSized (p : List Byte) : Bool :=
  let m := (byteAt p 3).toNat
  let r := (byteAt p (4 + m)).toNat
  let k := (byteAt p (5 + m + r)).toNat
  decide (m ≤ 32) && decide (r ≤ 4) && decide (k ≤ 4) && decide (p.length = 6 + m + r + k)

/-- The length-matches-kind check (R168, R202, R205). -/
def lengthMatches (k : Kind) (p : List Byte) : Bool :=
  match k with
  | .claim => p.length == 2
  | .yield => p.length == 3
  | .withdraw => p.length == 1
  | .evict => p.length == 1
  | .depart => p.length == 0
  | .beacon => p.length == 2
  | .syncAsk => p.length == 2
  | .enrol => p.length == 2
  | .found => p.length == 2
  | .page =>
    match p with
    | _ :: number :: _ =>
      if number = 0 then pageZeroSized p else decide (number.toNat ≤ 16) && p.length == 50
    | _ => false

/-- What a receiver made of a frame: it lost the frame (R169), the frame failed (R168), or the frame is clean. A sender is
given when the arbitration cell passed its turn check (R176). -/
inductive Received where
  | lost (sender : Option Station)
  | failed (sender : Option Station)
  | clean (frame : Frame)
  deriving DecidableEq, Repr

/-- The sender that a frame's faults are counted to: unknown when the arbitration cell fails its turn check (R176). -/
def faultSender (arb : Cell) : Option Station :=
  if turnHolds arb then some (Fin.ofNat 32 arb.data.toNat) else none

/-- The length cell lets the receiver place the verdict slot: it passes its turn check and is at most 50 (R168). -/
def lengthHolds (c : Cell) : Bool := turnHolds c && decide (c.data.toNat ≤ 50)

/-- The receiver checks over the cells of a frame, the first cell arb, the second kind and the third length (R168 to R170,
R205). A reading whose cells are not 8 and the payload's in number fails (log entry 10). -/
def receiveCells (arb kind length : Cell) (rest : List Cell) (gap : Bool) : Received :=
  let n := length.data.toNat
  let bytes := rest.map (·.data)
  match kindOfCode (kind.data.toNat / 16), bytes with
  | some k, b1 :: b2 :: b3 :: more =>
    let payload := more.take n
    let covered := [arb.data, kind.data, length.data, b1, b2, b3] ++ payload
    if (arb :: kind :: length :: rest).all turnHolds && more.length == n + 2 && lengthMatches k payload
        && (more.drop n == generationBytes (crcOf covered)) && gap then
      .clean { cls := Fin.ofNat 8 (arb.data.toNat / 32), sender := Fin.ofNat 32 arb.data.toNat, kind := k,
               flags := BitVec.ofNat 4 kind.data.toNat, busSeq := b1 ++ b2 ++ b3, payload := payload }
    else .failed (faultSender arb)
  | _, _ => .failed (faultSender arb)

/-- What a receiver makes of a reading. -/
def receive (rd : Reading) : Received :=
  match rd.cells with
  | arb :: kind :: length :: rest =>
    if lengthHolds length then receiveCells arb kind length rest rd.gap else .lost (faultSender arb)
  | [arb, _] => .lost (faultSender arb)
  | [arb] => .lost (faultSender arb)
  | [] => .lost none

/-- A collision mismatch in one cell after the arbitration cell: a bit sent recessive and read dominant (R174). -/
def cellCollides (sent read : Cell) : Bool :=
  ((sent.data &&& ~~~read.data) != 0) || (sent.turn && !read.turn)

/-- A transmit mismatch in one cell: a bit sent dominant and read recessive (R174). -/
def cellMistransmits (sent read : Cell) : Bool :=
  ((~~~sent.data &&& read.data) != 0) || (!sent.turn && read.turn)

/-- Any pair of cells, sent and read, that satisfies p. -/
def anyPair (p : Cell → Cell → Bool) (sent read : List Cell) : Bool := (List.zip sent read).any fun x => p x.1 x.2

/-- A collision mismatch in an own attempt: from the arbitration cell's turn bit through the gap bit (R174). The data bits of
the arbitration cell are left out: there, recessive sent and dominant read is a lost arbitration (R167). -/
def collisionIn (sent : List Cell) (rd : Reading) : Bool :=
  (match sent, rd.cells with
    | a :: as, b :: bs => (a.turn && !b.turn) || anyPair cellCollides as bs
    | _, _ => false) || !rd.gap

/-- A transmit mismatch in an own attempt, in any bit, the arbitration cell included (R174). -/
def mistransmitIn (sent : List Cell) (rd : Reading) : Bool := anyPair cellMistransmits sent rd.cells

end Sys2Proof.Machine
end

