-- ==== Sys2Proof/Machine/Operands.lean ====
section
/-! DEFINITION. How the bytes of a command's operands are read: lock, mode and binding arguments of the host port (R206), the
configuration record (R186, R187), the payload fields of a frame (R203), page 0 (R82, R204) and entry images (R23, R24). -/

namespace Sys2Proof.Machine

/-! ### Arguments of the host port -/

/-- A lock argument, taken as a whole byte; a value above 63 is out of range (R206). -/
def lockArg (b : Byte) : Option Lock := if b.toNat ≤ 63 then some (Fin.ofNat 64 b.toNat) else none

/-- A mode argument: 0x00 for WAIT, 0x01 for TRY, any other value out of range (R206). -/
def modeArg (b : Byte) : Option Mode :=
  if b = 0x00 then some .wait else if b = 0x01 then some .tryOnly else none

/-- A binding: a lock 0 to 63 or the code for none; 64 to 254 is out of range (R206). -/
def bindingArg (b : Byte) : Option (Option Lock) := if b = 0xFF then some none else (lockArg b).map some

/-- The beacon period of a code; any other value is out of range (R203). -/
def periodOfCode (b : Byte) : Option BeaconPeriod :=
  if b = 0x00 then some .ms5 else if b = 0x01 then some .ms10 else if b = 0x02 then some .ms20
  else if b = 0x03 then some .ms50 else none

/-- The code of a beacon period (R203). -/
def codeOfPeriod : BeaconPeriod → Byte
  | .ms5 => 0x00
  | .ms10 => 0x01
  | .ms20 => 0x02
  | .ms50 => 0x03

/-- P in milliseconds (R203). -/
def periodTime : BeaconPeriod → Nat
  | .ms5 => 5
  | .ms10 => 10
  | .ms20 => 20
  | .ms50 => 50

/-- A flag byte: 0x00 clear, 0x01 set, any other value out of range (R187, R206). -/
def flagArg (b : Byte) : Option Bool :=
  if b = 0x00 then some false else if b = 0x01 then some true else none

/-- Two different places of a table name the same lock. -/
def namesLockTwice (v : Vector (Option Lock) 4) : Bool :=
  (List.finRange 4).any fun p => (List.finRange 4).any fun q => p != q && v[p].isSome && v[p] == v[q]

/-- The configuration record of the 20 argument bytes of CONFIGURE, or none where a check of R187 gives RANGE. -/
def configArg (b : Vector Byte 20) : Option ConfigRecord :=
  let grantBytes : Vector Byte 8 := tabulate fun i => b[4 + i.val]
  let requestBytes : Vector Byte 4 := tabulate fun i => b[12 + i.val]
  let grants : Vector (Option (Option Lock)) 8 := tabulate fun i => bindingArg grantBytes[i]
  let requests : Vector (Option (Option Lock)) 4 := tabulate fun i => bindingArg requestBytes[i]
  match periodOfCode b[0], flagArg b[3] with
  | some period, some rejoin =>
    if 1 ≤ b[1].toNat ∧ b[1].toNat ≤ 32 ∧ b[2].toNat ≤ 15 then
      if (List.finRange 8).all (fun i => grants[i].isSome) && (List.finRange 4).all (fun i => requests[i].isSome) then
        let bound : Vector (Option Lock) 4 := tabulate fun i => requests[i].join
        if namesLockTwice bound then none
        else some { period := period, quorum := b[1].toNat, guardTime := b[2].toNat, autoRejoin := rejoin,
                    grants := tabulate fun i => grants[i].join, requests := bound,
                    limits := tabulate fun i => b[16 + i.val] }
      else none
    else none
  | _, _ => none

/-! ### Payload fields -/

/-- The lock of a payload: bits 5 to 0 of its first byte (R8, R203). -/
def lockField (p : List Byte) : Lock := Fin.ofNat 64 (byteAt p 0).toNat

/-- The mode of a CLAIM payload: bit 0 of its second byte (R203). -/
def modeField (p : List Byte) : Mode := if (byteAt p 1).getLsbD 0 then .tryOnly else .wait

/-- The generation of a YIELD payload (R203). -/
def generationField (p : List Byte) : Generation := byteAt p 1 ++ byteAt p 2

/-- The target of an EVICT payload: bits 4 to 0 of its byte (R8, R203). -/
def targetField (p : List Byte) : Station := Fin.ofNat 32 (byteAt p 0).toNat

/-- The reason of a YIELD: bit 0 of its flags (R202). -/
def reasonField (flags : BitVec 4) : Reason := if flags.getLsbD 0 then .expired else .released

/-- The mode byte of a CLAIM payload. -/
def modeByte : Mode → Byte
  | .wait => 0
  | .tryOnly => 1

/-- The flags of a YIELD (R202). -/
def reasonFlags : Reason → BitVec 4
  | .released => 0
  | .expired => 1

/-- The lock byte of a payload. -/
def lockByte (l : Lock) : Byte := BitVec.ofNat 8 l.val

/-- The profile bytes of a configuration record (R203). -/
def profileBytes (c : ConfigRecord) : List Byte := [codeOfPeriod c.period, BitVec.ofNat 8 c.quorum]

/-- The profile carried in a payload equals a record's: both bytes are equal (R51, R203). -/
def profileEquals (c : ConfigRecord) (p : List Byte) : Bool :=
  byteAt p 0 == codeOfPeriod c.period && (byteAt p 1).toNat == c.quorum

/-! ### Page 0 -/

/-- A page 0 as a joiner takes it (R82, R204). -/
structure PageZero where
  round       : Byte
  feeder      : Station
  members     : List Station
  roundList   : List Station
  pendingList : List Station
  deriving DecidableEq, Repr

/-- The station of a page 0 byte. A byte above 31 names none in the manual: a free value (log entry 8). -/
def stationOfByte (b : Byte) : Station := if b.toNat < 32 then Fin.ofNat 32 b.toNat else Config.foreignStation b

/-- The members of a page 0 payload, as bytes. -/
def pageZeroMembers (p : List Byte) : List Byte := (p.drop 4).take (byteAt p 3).toNat

/-- The round list of a page 0 payload, as bytes. -/
def pageZeroRound (p : List Byte) : List Byte :=
  let m := (byteAt p 3).toNat
  (p.drop (5 + m)).take (byteAt p (4 + m)).toNat

/-- The pending list of a page 0 payload, as bytes. -/
def pageZeroPending (p : List Byte) : List Byte :=
  let m := (byteAt p 3).toNat
  let r := (byteAt p (4 + m)).toNat
  (p.drop (6 + m + r)).take (byteAt p (5 + m + r)).toNat

/-- The well-formed page 0 of a payload, or none where R82 disregards it: 1 to 32 members, none twice, the feeder among them,
the lists of 0 to 4 stations with none twice in the same list. -/
def readPageZero (p : List Byte) : Option PageZero :=
  let members := pageZeroMembers p
  let round := pageZeroRound p
  let waiting := pageZeroPending p
  if (byteAt p 2 :: (members ++ round ++ waiting)).all (fun b => decide (b.toNat < 32)) || Config.foreignPageRead p then
    let page : PageZero :=
      { round := byteAt p 0, feeder := stationOfByte (byteAt p 2), members := members.map stationOfByte,
        roundList := round.map stationOfByte, pendingList := waiting.map stationOfByte }
    if 1 ≤ page.members.length ∧ page.members.length ≤ 32 ∧ page.members.Nodup ∧ page.feeder ∈ page.members
        ∧ page.roundList.length ≤ 4 ∧ page.roundList.Nodup ∧ page.pendingList.length ≤ 4 ∧ page.pendingList.Nodup then
      some page
    else none
  else none

/-! ### Entry images -/

/-- The entry image of a lock entry: holder, generation, waiter count and 8 waiter positions (R23, R204). -/
def imageOf (e : LockEntry) : List Byte :=
  optStationByte e.holder :: generationBytes e.generation ++ [BitVec.ofNat 8 e.waiters.length]
    ++ (e.waiters.map stationByte ++ List.replicate 8 0xFF).take 8

/-- The j-th entry image of a lock page payload, j from 0 to 3 (R204). -/
def imageAt (p : List Byte) (j : Nat) : List Byte := (p.drop (2 + 12 * j)).take 12

/-- The waiter bytes within the count of an image (R204). -/
def imageWaiters (im : List Byte) : List Byte := (im.drop 4).take (byteAt im 3).toNat

/-- A byte is a station number 0 to 31 that is a member (R24). -/
def memberByte (roster : StationSet) (b : Byte) : Bool := decide (b.toNat < 32) && roster[(Fin.ofNat 32 b.toNat : Station)]

/-- The check of an entry image against the roster (R24). -/
def imagePasses (roster : StationSet) (im : List Byte) : Bool :=
  let holder := byteAt im 0
  let waiters := imageWaiters im
  (holder == 0xFF || memberByte roster holder) && decide ((byteAt im 3).toNat ≤ 8) && waiters.all (memberByte roster)
    && decide waiters.Nodup && decide (holder ∉ waiters) && (holder != 0xFF || waiters.isEmpty)

/-- The lock entry an image carries (R24). -/
def entryOfImage (im : List Byte) : LockEntry :=
  { holder := if byteAt im 0 = 0xFF then none else some (Fin.ofNat 32 (byteAt im 0).toNat),
    generation := byteAt im 1 ++ byteAt im 2,
    waiters := (imageWaiters im).map fun b => Fin.ofNat 32 b.toNat }

/-- The payload that a feeder composes from its replica for the next page (R99, R204): the round number, the page number, and
page 0's lists or the four images of a lock page. -/
def composePage (r : Replica) : List Byte :=
  let x := r.transfer
  let header := [x.round, BitVec.ofNat 8 x.nextPage]
  if x.nextPage = 0 then
    let members := stationsOf r.roster
    header ++ [stationByte x.feeder, BitVec.ofNat 8 members.length] ++ members.map stationByte
      ++ BitVec.ofNat 8 x.roundList.length :: x.roundList.map stationByte
      ++ BitVec.ofNat 8 x.pendingList.length :: x.pendingList.map stationByte
  else
    header ++ (List.range 4).flatMap fun j => imageOf r.table[(Fin.ofNat 64 (4 * (x.nextPage - 1) + j) : Lock)]

end Sys2Proof.Machine
end

