-- ==== Sys2Proof/Machine/Flags.lean ====
section
/-! DEFINITION. What is computed from State and not stored: which states vote (R32), the times of the configuration, the fence
(R61), the feeder duty (R98), the bindings, and the outputs GNT0 to GNT7 (R129), ATTN (R199) and SDO (R180). -/

namespace Sys2Proof.Machine

/-- The voting states (R32). -/
def voting : StationState → Bool
  | .collecting => true
  | .enrolling => true
  | .member => true
  | .departing => true
  | _ => false

/-- The states with presence duties: beacons, silence timers and evictions, PEER notices (R52). -/
def present : StationState → Bool
  | .member => true
  | .departing => true
  | _ => false

/-- The joining states (chapter Joining the Bus). -/
def joining : StationState → Bool
  | .listen => true
  | .founding => true
  | .asking => true
  | .waitRound => true
  | .collecting => true
  | .enrolling => true
  | _ => false

/-- The beacon period P in milliseconds; 0 with no configuration record (log entry 22). -/
def beaconPeriod (s : State) : Nat :=
  match s.sc.config with
  | some c => periodTime c.period
  | none => 0

/-- The quorum Q; 0 with no configuration record (log entry 22). -/
def quorumOf (s : State) : Nat :=
  match s.sc.config with
  | some c => c.quorum
  | none => 0

/-- The guard time in milliseconds (R130). -/
def guardTimeOf (s : State) : Nat :=
  match s.sc.config with
  | some c => c.guardTime
  | none => 0

/-- The lock bound to a grant line (R128). -/
def grantBinding (s : State) (n : GrantLine) : Option Lock :=
  match s.sc.config with
  | some c => c.grants[n]
  | none => none

/-- The lock bound to a request input (R134). -/
def requestBinding (s : State) (p : Pin) : Option Lock :=
  match s.sc.config with
  | some c => c.requests[p]
  | none => none

/-- The hold limit of a request input's claims (R134). -/
def requestLimit (s : State) (p : Pin) : Byte :=
  match s.sc.config with
  | some c => c.limits[p]
  | none => 0

/-- A lock is pin-bound: some request input is bound to it (R134). -/
def pinBound (s : State) (l : Lock) : Bool := (List.finRange 4).any fun p => requestBinding s p == some l

/-- The profile of a payload equals this station's (R51). -/
def sameProfile (s : State) (p : List Byte) : Bool :=
  match s.sc.config with
  | some c => profileEquals c p
  | none => false

/-- The station is fenced: its set of fence causes is not empty (R61). -/
def fenced (s : State) : Bool := s.pm.contact || s.pm.quorum

/-- Feeder duty: MEMBER or DEPARTING, a RUNNING round, and this station its feeder (R98). -/
def feederDuty (s : State) : Bool :=
  present s.sc.state && s.au.replica.transfer.running && s.au.replica.transfer.feeder == s.station

/-- The hold record for a lock: it stands in its tier's slot (R102). -/
def recordFor (s : State) (l : Lock) : Option HoldRecord :=
  match s.rt.slots[tierOf l] with
  | some r => if r.lock = l then some r else none
  | none => none

/-- A record is pending (R102). -/
def isPending (r : HoldRecord) : Bool :=
  match r.state with
  | .claiming => true
  | .claimCancel => true
  | .waiting => true
  | .withdrawing => true
  | .held => false
  | .yielding => false

/-- The lock's tier is higher than the tier of every occupied slot (R104, R106). -/
def aboveOccupied (s : State) (l : Lock) : Bool :=
  (List.finRange 8).all fun t => s.rt.slots[t].isNone || decide (t < tierOf l)

/-- Some record is pending (R106). -/
def anyPending (s : State) : Bool :=
  (List.finRange 8).any fun t =>
    match s.rt.slots[t] with
    | some r => isPending r
    | none => false

/-- A record for the lock is HELD. -/
def lockHeld (s : State) (l : Lock) : Bool :=
  match recordFor s l with
  | some r => r.state == .held
  | none => false

/-- GNTn is active: MEMBER, not fenced, its lock's record HELD, its guard elapsed (R129). -/
def grantActive (s : State) (n : GrantLine) : Bool :=
  s.sc.state == .member && !fenced s && s.gl.guards[n] == .elapsed &&
    match grantBinding s n with
    | some l => lockHeld s l
    | none => false

/-- ATTN: the notice queue holds a notice, or OVERFLOW is set (R199). -/
def attention (s : State) : Bool := !s.hp.notices.isEmpty || s.hp.overflow

/-- SDO is driven, not at high impedance: a transaction is in progress (R180, R181). -/
def sdoDriven (s : State) : Bool := s.hp.phase != .idle

end Sys2Proof.Machine
end

