-- ==== Sys2Proof/Machine/Table.lean ====
section
/-! DEFINITION. The effect of frames on lock entries (chapter The Claim Table) and on the transfer record (section 2.6): functions of
the entry or record and the frame alone (R7). -/

namespace Sys2Proof.Machine

/-- An outcome record (R10). -/
structure LockOutcome where
  name       : OutcomeName
  lock       : Lock
  subject    : Station
  generation : Generation
  reason     : Option Reason
  deriving DecidableEq, Repr

/-- What one frame does to one lock entry: the new entry, and the outcomes in order. -/
abbrev EntryChange := LockEntry × List LockOutcome

/-- An outcome that carries the generation of an entry and no reason. -/
def outcomeOf (k : OutcomeName) (l : Lock) (t : Station) (g : Generation) : LockOutcome :=
  { name := k, lock := l, subject := t, generation := g, reason := none }

/-- A CLAIM from a station on a lock entry (R11). -/
def claimEntry (t : Station) (m : Mode) (l : Lock) (e : LockEntry) : EntryChange :=
  match e.holder with
  | none =>
    ({ e with holder := some t, generation := e.generation + 1 }, [outcomeOf .granted l t (e.generation + 1)])
  | some h =>
    if h = t then (e, [outcomeOf .alreadyHeld l t e.generation])
    else if t ∈ e.waiters then (e, [outcomeOf .alreadyWaiting l t e.generation])
    else
      match m with
      | .tryOnly => (e, [outcomeOf .refusedBusy l t e.generation])
      | .wait =>
        if 8 ≤ e.waiters.length then (e, [outcomeOf .refusedFull l t e.generation])
        else ({ e with waiters := e.waiters ++ [t] }, [outcomeOf .queued l t e.generation])

/-- The release of a lock: handed to the head waiter with the next generation, or left free (R15). -/
def releaseEntry (l : Lock) (e : LockEntry) : EntryChange :=
  match e.waiters with
  | [] => ({ e with holder := none }, [])
  | w :: rest =>
    ({ holder := some w, generation := e.generation + 1, waiters := rest }, [outcomeOf .granted l w (e.generation + 1)])

/-- A YIELD from a station with a generation and a reason (R16, R17). -/
def yieldEntry (t : Station) (g : Generation) (why : Reason) (l : Lock) (e : LockEntry) : EntryChange :=
  if e.holder = some t ∧ e.generation = g then
    let freed := releaseEntry l e
    (freed.1, { name := .yielded, lock := l, subject := t, generation := g, reason := some why } :: freed.2)
  else (e, [{ name := .stale, lock := l, subject := t, generation := e.generation, reason := some why }])

/-- A WITHDRAW from a station (R18, R19). -/
def withdrawEntry (t : Station) (l : Lock) (e : LockEntry) : EntryChange :=
  if t ∈ e.waiters then
    ({ e with waiters := e.waiters.erase t }, [outcomeOf .withdrawn l t e.generation])
  else (e, [outcomeOf .notWaiting l t e.generation])

/-- The removal of a station from one lock entry (R20). -/
def removeFromEntry (t : Station) (l : Lock) (e : LockEntry) : EntryChange :=
  if e.holder = some t then releaseEntry l e
  else if t ∈ e.waiters then ({ e with waiters := e.waiters.erase t }, [])
  else (e, [])

/-- One lock's entry changed, unless it is marked uncollected: then nothing changes and no outcome is produced (R8, R85). -/
def changeLock (marks : Vector Bool 64) (l : Lock) (f : LockEntry → EntryChange) (table : Vector LockEntry 64) :
    Vector LockEntry 64 × List LockOutcome :=
  if marks[l] then (table, []) else (putAt table l (f table[l]).1, (f table[l]).2)

/-- The removal of a station from the table, from lock 0 to lock 63, decided entry by entry (R8, R20, R21). -/
def removeFromTable (marks : Vector Bool 64) (t : Station) (table : Vector LockEntry 64) :
    Vector LockEntry 64 × List LockOutcome :=
  (tabulate fun l => if marks[l] then table[l] else (removeFromEntry t l table[l]).1,
   (List.finRange 64).flatMap fun l => if marks[l] then [] else (removeFromEntry t l table[l]).2)

/-! ### Transfer rounds -/

/-- The transfer events of an application report (R38). -/
inductive TransferEvent where
  | roundStarted
  | pageTaken (number : Nat)
  | roundEnded
  | roundRestarted
  | roundDissolved
  deriving DecidableEq, Repr

/-- A round started: the lowest-numbered member feeds it, and the pending list becomes its round list (R46). -/
def startRound (roster : StationSet) (x : TransferRecord) : TransferRecord :=
  { running := true, feeder := (lowestOf roster).getD x.feeder, round := x.round + 1, nextPage := 0,
    roundList := x.pendingList, pendingList := [] }

/-- A SYNC_ASK with an equal or unequal profile from a station (R45). -/
def askRound (same : Bool) (t : Station) (roster : StationSet) (x : TransferRecord) : TransferRecord × List TransferEvent :=
  if !same || decide (t ∈ x.pendingList) || decide (4 ≤ x.pendingList.length) then (x, [])
  else if x.running then ({ x with pendingList := x.pendingList ++ [t] }, [])
  else (startRound roster { x with pendingList := x.pendingList ++ [t] }, [.roundStarted])

/-- A PAGE with a round number and page number from a station qualifies (R47). -/
def pageQualifies (t : Station) (round number : Byte) (x : TransferRecord) : Bool :=
  x.running && x.feeder == t && x.round == round && x.nextPage == number.toNat

/-- The end of a round after its page 16 (R48). -/
def endRound (roster : StationSet) (x : TransferRecord) : TransferRecord × List TransferEvent :=
  if x.pendingList = [] then ({ x with running := false, nextPage := 0, roundList := [] }, [.roundEnded])
  else (startRound roster x, [.roundEnded, .roundStarted])

/-- A qualifying PAGE with a page number (R47, R48). -/
def takePage (number : Nat) (roster : StationSet) (x : TransferRecord) : TransferRecord × List TransferEvent :=
  let y := { x with nextPage := x.nextPage + 1 }
  if number = 16 then
    let done := endRound roster y
    (done.1, .pageTaken 16 :: done.2)
  else (y, [.pageTaken number])

/-- The transfer record after a station has left the roster: it leaves both lists, and a running round that it fed is restarted
under the lowest-numbered member, or dissolved when no member remains (R43 steps 3 and 4, R49). The roster is that after the
removal. -/
def leaveRound (t : Station) (roster : StationSet) (x : TransferRecord) : TransferRecord × List TransferEvent :=
  let y := { x with roundList := x.roundList.erase t, pendingList := x.pendingList.erase t }
  if y.running && y.feeder == t then
    match lowestOf roster with
    | some m => ({ y with feeder := m, round := y.round + 1, nextPage := 0 }, [.roundRestarted])
    | none =>
      ({ y with running := false, round := y.round + 1, nextPage := 0, roundList := [], pendingList := [] },
       [.roundDissolved])
  else (y, [])

end Sys2Proof.Machine
end

