-- ==== Sys2Proof/Machine/Apply.lean ====
section
/-! DEFINITION. The Apply Unit: the decision for each accepted frame (R34), the mismatch streak (R39, R40), the application of each
kind to the replica (R41 to R49) and its report (R38). -/

namespace Sys2Proof.Machine

/-- The disposition of an accepted frame (R38). -/
inductive Disposition where
  | applied
  | outsiderSequence
  | outsiderMember
  | ignored
  deriving DecidableEq, Repr

/-- The result of an applied ENROL (R42). -/
inductive EnrolResult where
  | enrolled
  | refusedProfile
  | alreadyMember
  deriving DecidableEq, Repr

/-- The application report (R38). -/
structure Report where
  kind         : Kind
  sender       : Station
  own          : Bool
  disposition  : Disposition
  outcomes     : List LockOutcome
  added        : Option Station
  removed      : Option (Station × LeftCause)
  enrol        : Option EnrolResult
  events       : List TransferEvent
  desync       : Bool
  imageFailure : Bool
  deriving DecidableEq, Repr

/-- A report with the fields that are always present. -/
def plainReport (own : Bool) (f : Frame) (d : Disposition) : Report :=
  { kind := f.kind, sender := f.sender, own := own, disposition := d, outcomes := [], added := none, removed := none,
    enrol := none, events := [], desync := false, imageFailure := false }

/-- The disposition of an accepted frame at a voting station (R34). -/
def dispositionOf (r : Replica) (f : Frame) : Disposition :=
  match f.kind with
  | .found => .ignored
  | .syncAsk => .applied
  | .enrol => if f.busSeq = r.busSeq then .applied else .outsiderSequence
  | _ =>
    if f.busSeq = r.busSeq then (if r.roster[f.sender] then .applied else .outsiderMember) else .outsiderSequence

/-- The desync condition on a streak of 3: at least 2 senders, or every other member of the roster, of which there is at least
one (R40). -/
def streakDesyncs (self : Station) (roster : StationSet) (count : Nat) (senders : StationSet) : Bool :=
  let others := (stationsOf roster).filter (· ≠ self)
  count == 3 && (decide (2 ≤ countOf senders) || (!others.isEmpty && others.all fun t => senders[t]))

/-- An outsider frame by sequence entered in the mismatch streak (R39). -/
def outsiderStreak (t : Station) (a : ApplyUnit) : ApplyUnit :=
  { a with streakCount := min 3 (a.streakCount + 1), streakSenders := addStation a.streakSenders t }

/-- The mismatch streak cleared (R39). -/
def clearStreak (a : ApplyUnit) : ApplyUnit := { a with streakCount := 0, streakSenders := noStations }

/-- The station T removed from the replica, with the outcomes and the transfer events (R43). -/
def removeMember (marks : Vector Bool 64) (t : Station) (r : Replica) : Replica × List LockOutcome × List TransferEvent :=
  let roster := dropStation r.roster t
  let cut := removeFromTable marks t r.table
  let round := leaveRound t roster r.transfer
  ({ r with roster := roster, table := cut.1, transfer := round.1 }, cut.2, round.2)

/-- A lock frame applied to the replica: one entry changes (R8, R85). -/
def applyToLock (marks : Vector Bool 64) (l : Lock) (f : LockEntry → EntryChange) (r : Replica) : Replica × List LockOutcome :=
  let change := changeLock marks l f r.table
  ({ r with table := change.1 }, change.2)

/-- What the application of a frame of each kind does to the replica, less the advance of the bus sequence, and its report. The
flag same is the equality of the frame's profile with the station's. -/
def applyKind (marks : Vector Bool 64) (same own : Bool) (f : Frame) (r : Replica) : Replica × Report :=
  let base := plainReport own f .applied
  match f.kind with
  | .claim =>
    let x := applyToLock marks (lockField f.payload) (claimEntry f.sender (modeField f.payload) (lockField f.payload)) r
    (x.1, { base with outcomes := x.2 })
  | .yield =>
    let x := applyToLock marks (lockField f.payload)
      (yieldEntry f.sender (generationField f.payload) (reasonField f.flags) (lockField f.payload)) r
    (x.1, { base with outcomes := x.2 })
  | .withdraw =>
    let x := applyToLock marks (lockField f.payload) (withdrawEntry f.sender (lockField f.payload)) r
    (x.1, { base with outcomes := x.2 })
  | .evict =>
    if r.roster[targetField f.payload] then
      let x := removeMember marks (targetField f.payload) r
      (x.1, { base with outcomes := x.2.1, removed := some (targetField f.payload, .evicted), events := x.2.2 })
    else (r, base)
  | .depart =>
    let x := removeMember marks f.sender r
    (x.1, { base with outcomes := x.2.1, removed := some (f.sender, .departed), events := x.2.2 })
  | .beacon => (r, base)
  | .syncAsk =>
    let x := askRound same f.sender r.roster r.transfer
    ({ r with transfer := x.1 }, { base with events := x.2 })
  | .page =>
    if pageQualifies f.sender (byteAt f.payload 0) (byteAt f.payload 1) r.transfer then
      let x := takePage (byteAt f.payload 1).toNat r.roster r.transfer
      ({ r with transfer := x.1 }, { base with events := x.2 })
    else (r, base)
  | .enrol =>
    if r.roster[f.sender] then (r, { base with enrol := some .alreadyMember })
    else if same then
      ({ r with roster := addStation r.roster f.sender }, { base with enrol := some .enrolled, added := some f.sender })
    else (r, { base with enrol := some .refusedProfile })
  | .found => (r, base)

/-- The first lock of a lock page (R23). -/
def pageLock (number j : Nat) : Lock := Fin.ofNat 64 (4 * (number - 1) + j)

/-- The table with the four entries of a page replaced by its images (R24). -/
def installImages (p : List Byte) (number : Nat) (table : Vector LockEntry 64) : Vector LockEntry 64 :=
  (List.range 4).foldl (fun v j => putAt v (pageLock number j) (entryOfImage (imageAt p j))) table

/-- The installation of a qualifying lock page at a COLLECTING station, part of the page's application: the four images are
checked against the roster, and all or none is installed (R24, R86). The report carries image failure. -/
def installPage (p : List Byte) (s : State) (rep : Report) : State × Report :=
  let number := (byteAt p 1).toNat
  let r := s.au.replica
  if (List.range 4).all fun j => imagePasses r.roster (imageAt p j) then
    let marks := (List.range 4).foldl (fun v j => putAt v (pageLock number j) false) s.tc.uncollected
    (((s.withReplica { r with table := installImages p number r.table }).withTc
        { collected := s.tc.collected + 1, uncollected := marks }).withSc { s.sc with roundTimer := 0 }, rep)
  else (s, { rep with imageFailure := true })

/-- A report of a page taken with a number from 1 to 16 (R86). -/
def takesLockPage (rep : Report) : Bool :=
  rep.events.any fun e =>
    match e with
    | .pageTaken n => decide (1 ≤ n)
    | _ => false

/-- The application of a frame (R34 step 2 or 5): the kind's effect, the bus sequence advanced, the streak cleared by another
station's frame (R39), and at a COLLECTING station the images of a page installed (R86). -/
def applyFrame (own : Bool) (f : Frame) (s : State) : State × Report :=
  let r := s.au.replica
  let x := applyKind s.tc.uncollected (sameProfile s f.payload) own f r
  let au := { s.au with replica := { x.1 with busSeq := r.busSeq + 1 } }
  let t := s.withAu (if own then au else clearStreak au)
  if s.sc.state = .collecting ∧ takesLockPage x.2 then installPage f.payload t x.2 else (t, x.2)

/-- The Apply Unit of a voting station takes an accepted frame (R34, R36, R39, R40). -/
def takeFrame (own : Bool) (f : Frame) (s : State) : State × Report :=
  match dispositionOf s.au.replica f with
  | .applied => applyFrame own f s
  | .outsiderSequence =>
    let au := outsiderStreak f.sender s.au
    (s.withAu au, { plainReport own f .outsiderSequence with
                    desync := streakDesyncs s.station s.au.replica.roster au.streakCount au.streakSenders })
  | d => (s, plainReport own f d)

end Sys2Proof.Machine
end

