-- ==== Sys2Proof/Machine/Tracker.lean ====
section
/-! DEFINITION. The Grant Line Unit's guards (R130), and the Request Tracker: claims, yields and withdraws (sections 5.2, 5.3), the
outcomes of applied frames (section 5.4), deferred YIELDs (R119), and the levels of request inputs (R107, R108). -/

namespace Sys2Proof.Machine

/-! ### Guards -/

/-- The guards of the lines whose binding satisfies p set to a value. -/
def setGuards (p : Lock → Bool) (x : Guard) (s : State) : State :=
  s.withGl { guards := tabulate fun n =>
    match grantBinding s n with
    | some l => if p l then x else s.gl.guards[n]
    | none => s.gl.guards[n] }

/-- A guard restarted at 0: RUNNING, or ELAPSED at once with a guard time of 0 (R130). -/
def startedGuard (s : State) : Guard := if guardTimeOf s = 0 then .elapsed else .running 0

/-- The guards of a lock's lines restarted, if the station is an unfenced MEMBER; otherwise they stay STOPPED (R130). -/
def startGuards (l : Lock) (s : State) : State :=
  if s.sc.state = .member ∧ fenced s = false then setGuards (· == l) (startedGuard s) s else s

/-- The guards of a lock's lines stopped: its record leaves HELD, and the lines go inactive (R130, R132). -/
def stopGuards (l : Lock) (s : State) : State := setGuards (· == l) .stopped s

/-- The guards of every HELD lock restarted, at an unfence (R64, R130). -/
def restartHeldGuards (s : State) : State := setGuards (fun l => lockHeld s l) (startedGuard s) s

/-- Every guard stopped (R130). -/
def stopAllGuards (s : State) : State := s.withGl .stopped

/-! ### Slots -/

/-- A slot of the hold list set. -/
def setSlot (t : Tier) (r : Option HoldRecord) (s : State) : State := s.withRt { slots := putAt s.rt.slots t r }

/-- The slot's request entry is CONTENDING with a frame of this kind. -/
def slotContends (k : Kind) (t : Tier) (s : State) : Bool :=
  s.oq.entries.any fun e => e.contending && ownerOf e.content == .slot t && kindOf e.content == k

/-- The QUEUED request entry of a slot removed (R153). -/
def cancelRequest (t : Tier) (s : State) : State := cancelQueued (fun e => ownerOf e.content == .slot t) s

/-- The ignore mark of a request input set (R136). -/
def ignorePin (p : Pin) (s : State) : State :=
  s.withRi { inputs := putAt s.ri.inputs p { s.ri.inputs[p] with ignored := true } }

/-- The ignore mark set for a record of pin origin (R114, R117, R136). -/
def ignoreOrigin (o : Origin) (s : State) : State :=
  match o with
  | .host => s
  | .req p => ignorePin p s

/-! ### Claims, yields and withdraws -/

/-- A record in CLAIMING placed in the slot of the lock's tier, and its CLAIM frame in the outbound queue (R106). The slot is empty then and
has no entry (R104, R143; State.queueLawful). -/
def placeClaim (o : Origin) (l : Lock) (m : Mode) (limit : Byte) (s : State) : State :=
  placeEntry (.claim l m)
    (setSlot (tierOf l)
      (some { lock := l, origin := o, state := .claiming, holdLimit := limit, generation := none, withdrawAsked := false,
              holdTimer := none, deferred := none }) s)

/-- A HELD record moved to YIELDING: its lines go inactive and its hold timer stops first, then the YIELD is placed, or deferred
while the withdraw-asked mark is set; with the mark clear the slot has no entry (R109, R119, R122, R132, R143; State.queueLawful). -/
def yieldRecord (why : Reason) (r : HoldRecord) (s : State) : State :=
  let s := stopGuards r.lock s
  if r.withdrawAsked then
    setSlot (tierOf r.lock) (some { r with state := .yielding, holdTimer := none, deferred := some why }) s
  else
    placeEntry (.yield r.lock (r.generation.getD 0) why)
      (setSlot (tierOf r.lock) (some { r with state := .yielding, holdTimer := none }) s)

/-- A withdraw of a CLAIMING or WAITING record; any other record is left alone (R110). -/
def withdrawRecord (r : HoldRecord) (s : State) : State :=
  match r.state with
  | .claiming =>
    if slotContends .claim (tierOf r.lock) s then
      setSlot (tierOf r.lock) (some { r with state := .claimCancel, withdrawAsked := true }) s
    else lockNotice .withdrawn r.lock none .none (setSlot (tierOf r.lock) none (cancelRequest (tierOf r.lock) s))
  | .waiting =>
    placeEntry (.withdraw r.lock)
      (setSlot (tierOf r.lock) (some { r with state := .withdrawing, withdrawAsked := true }) s)
  | _ => s

/-- A request input's claim of its bound lock: taken in WAIT mode with the pin's hold limit, or refused by the tier rule or the
pending rule with PIN_REFUSED and the pin ignored (R107). -/
def pinClaim (p : Pin) (l : Lock) (s : State) : State :=
  if aboveOccupied s l && !anyPending s then placeClaim (.req p) l .wait (requestLimit s p) s
  else ignorePin p (lockNotice .pinRefused l none .none s)

/-- The level of a request input compared with the record of its lock, in MEMBER (R108, R137). -/
def evaluatePin (p : Pin) (s : State) : State :=
  match requestBinding s p with
  | none => s
  | some l =>
    if s.sc.state = .member then
      match recordFor s l with
      | none => if s.ri.inputs[p].stable && !s.ri.inputs[p].ignored then pinClaim p l s else s
      | some r =>
        if s.ri.inputs[p].stable then s
        else if r.state = .held then yieldRecord .released r s
        else withdrawRecord r s
    else s

/-- The re-evaluation after a record's change, for a record of pin origin (R108). -/
def evaluateOrigin (o : Origin) (s : State) : State :=
  match o with
  | .host => s
  | .req p => evaluatePin p s

/-! ### Outcomes -/

/-- A record enters HELD: its request frame cancelled if one is still QUEUED, the generation stored, the hold timer started if it has a
limit and the station is MEMBER, the guard started, the notice placed, the pin re-evaluated (R102, R108, R113, R120, R121, R130; log
entry 33). -/
def enterHeld (k : NoticeKind) (mark : Bool) (g : Generation) (r : HoldRecord) (s : State) : State :=
  let timer := if r.holdLimit ≠ 0 ∧ s.sc.state = .member then some 0 else none
  let s := setSlot (tierOf r.lock)
    (some { r with state := .held, generation := some g, withdrawAsked := mark, holdTimer := timer })
    (cancelRequest (tierOf r.lock) s)
  let s := startGuards r.lock s
  let s := lockNotice k r.lock (some g) .none s
  evaluateOrigin r.origin s

/-- A record's slot emptied, its lines already or now inactive and its request frame cancelled if one is still QUEUED, with a notice and
the pin re-evaluated (R102, R108, section 5.4; log entry 33). -/
def emptySlot (n : Option (NoticeKind × Option Generation × Qualifier)) (r : HoldRecord) (s : State) : State :=
  let s := setSlot (tierOf r.lock) none (cancelRequest (tierOf r.lock) s)
  let s := match n with
    | some (k, g, q) => lockNotice k r.lock g q s
    | none => s
  evaluateOrigin r.origin s

/-- A CLAIMING record whose claim was queued; its CLAIM is cancelled if it is still QUEUED (R102, R114; log entry 33). -/
def enterWaiting (g : Generation) (r : HoldRecord) (s : State) : State :=
  evaluateOrigin r.origin
    (lockNotice .queued r.lock (some g) .none
      (setSlot (tierOf r.lock) (some { r with state := .waiting }) (cancelRequest (tierOf r.lock) s)))

/-- A CLAIM_CANCEL record whose claim was queued: WITHDRAWING with a WITHDRAW placed (R114). In DEPARTING no frame is placed
(R123), and with no frame in the queue the mark is clear (R102; log entry 14). -/
def enterWithdrawing (r : HoldRecord) (s : State) : State :=
  if s.sc.state = .departing then
    setSlot (tierOf r.lock) (some { r with state := .withdrawing, withdrawAsked := false }) s
  else
    placeEntry (.withdraw r.lock) (setSlot (tierOf r.lock) (some { r with state := .withdrawing }) s)

/-- The withdraw-asked mark cleared as the WITHDRAW leaves the queue; a YIELD deferred behind it is placed now (R116, R119). -/
def withdrawLeft (r : HoldRecord) (s : State) : State :=
  let s := setSlot (tierOf r.lock) (some { r with withdrawAsked := false, deferred := none }) s
  match r.deferred with
  | some why => placeEntry (.yield r.lock (r.generation.getD 0) why) s
  | none => s

/-- A grant taken on a record (R113). -/
def takeGrant (g : Generation) (r : HoldRecord) (s : State) : State :=
  match r.state with
  | .claiming => enterHeld .granted false g r s
  | .claimCancel => enterHeld .tooLate false g r s
  | .waiting => enterHeld .granted false g r s
  | .withdrawing => enterHeld .tooLate (r.withdrawAsked && slotContends .withdraw (tierOf r.lock) s) g r s
  | _ => s

/-- An outcome whose subject is this station taken on the record of its lock (R113 to R117); an outcome with no record, or with a
record in a state for which no row is given, is disregarded (R118). -/
def takeOutcome (o : LockOutcome) (s : State) : State :=
  match recordFor s o.lock with
  | none => s
  | some r =>
    match o.name, r.state with
    | .granted, _ => takeGrant o.generation r s
    | .queued, .claiming => enterWaiting o.generation r s
    | .queued, .claimCancel => enterWithdrawing r s
    | .refusedBusy, .claiming => emptySlot (some (.refusedBusy, some o.generation, .none)) r s
    | .refusedBusy, .claimCancel => emptySlot (some (.withdrawn, none, .none)) r s
    | .refusedFull, .claiming => emptySlot (some (.refusedFull, some o.generation, .none)) r (ignoreOrigin r.origin s)
    | .refusedFull, .claimCancel => emptySlot (some (.withdrawn, none, .none)) r s
    | .alreadyHeld, .claiming => enterHeld .granted false o.generation r s
    | .alreadyHeld, .claimCancel => enterHeld .tooLate false o.generation r s
    | .alreadyWaiting, .claiming => enterWaiting o.generation r s
    | .alreadyWaiting, .claimCancel => enterWithdrawing r s
    | .withdrawn, .withdrawing => emptySlot (some (.withdrawn, none, .none)) r s
    | .notWaiting, .withdrawing => emptySlot (some (.withdrawn, none, .none)) r s
    | .notWaiting, .held => if r.withdrawAsked then withdrawLeft r s else s
    | .notWaiting, .yielding => if r.withdrawAsked then withdrawLeft r s else s
    | .yielded, .yielding =>
      match o.reason with
      | some .expired => emptySlot none r s
      | _ => emptySlot (some (.yielded, some o.generation, .stale false)) r s
    | .stale, .yielding => emptySlot (some (.yielded, some o.generation, .stale true)) r s
    | _, _ => s

/-- The outcomes of a report whose subject is this station, taken in list order (R38, section 5.4). -/
def takeOutcomes (l : List LockOutcome) (s : State) : State :=
  (l.filter fun o => o.subject == s.station).foldl (fun t o => takeOutcome o t) s

/-! ### The hold list as a whole -/

/-- The REVOKED notice of a record: for one in HELD, YIELDING, WAITING or WITHDRAWING, with its generation if held (R124 to
R126). -/
def revokeNotice (r : HoldRecord) (s : State) : State :=
  match r.state with
  | .held => lockNotice .revoked r.lock r.generation .none s
  | .yielding => lockNotice .revoked r.lock r.generation .none s
  | .waiting => lockNotice .revoked r.lock none .none s
  | .withdrawing => lockNotice .revoked r.lock none .none s
  | .claiming => s
  | .claimCancel => s

/-- The REVOKED notice of a slot, if it is occupied. -/
def revokeSlot (o : Option HoldRecord) (s : State) : State :=
  match o with
  | some r => revokeNotice r s
  | none => s

/-- The REVOKED notices of the hold list in ascending slot order (R124, R125). -/
def revokeNotices (s : State) : State := s.rt.slots.toList.foldl (fun t o => revokeSlot o t) s

/-- The hold list cleared with REVOKED notices: at a drop and at the own DEPART (R124, R125). -/
def revokeAll (s : State) : State := (revokeNotices s).withRt .empty

/-- The hold list at LEAVE: every hold timer stopped, every deferred YIELD discarded, and the mark of a record whose QUEUED
WITHDRAW is purged cleared (R102, R121, R123; log entry 14). -/
def leaveHolds (s : State) : State :=
  s.withRt { slots := tabulate fun t =>
    (s.rt.slots[t]).map fun r =>
      { r with holdTimer := none, deferred := none,
               withdrawAsked := r.withdrawAsked && (slotContends .withdraw t s || slotContends .claim t s) } }

/-- A CLAIM or WITHDRAW entry that has come back to QUEUED, or was abandoned, is given to the Request Tracker; the entry is still
CONTENDING in the queue when this is taken. abandoned says that this was its sixteenth void. -/
def requestReturned (abandoned : Bool) (voids : Nat) (c : Content) (s : State) : State :=
  match c with
  | .claim l _ =>
    match recordFor s l with
    | some r =>
      match r.state with
      | .claimCancel => emptySlot (some (.withdrawn, none, .none)) r (removeContending s)
      | .claiming =>
        if abandoned then
          emptySlot (some (.claimFailed, none, .none)) r (ignoreOrigin r.origin (removeContending s))
        else returnContending voids s
      | _ => if abandoned then removeContending s else returnContending voids s
    | none => if abandoned then removeContending s else returnContending voids s
  | .withdraw l =>
    match recordFor s l with
    | some r =>
      match r.state with
      | .held => withdrawLeft r (removeContending s)
      | .yielding => withdrawLeft r (removeContending s)
      | _ => returnContending voids s
    | none => returnContending voids s
  | _ => returnContending voids s

end Sys2Proof.Machine
end

