-- ==== Sys2Proof/Machine/Presence.lean ====
section
/-! DEFINITION. The Presence Monitor: beacons, silence timers, the eviction decision, fencing and stranding (chapter Roster, Presence
and Fencing), and the revalidation of the outbound queue (R59, R148). -/

namespace Sys2Proof.Machine

/-! ### Limits -/

/-- The silence of a member is at or above the absence limit 5P (R58). -/
def overAbsence (s : State) (t : Station) : Bool :=
  match s.pm.silence[t] with
  | some time => decide (5 * beaconPeriod s ≤ time)
  | none => false

/-- The lowest-numbered member whose silence timer is at or above 5P (R58). -/
def evictionTarget (s : State) : Option Station := (List.finRange 32).find? (overAbsence s)

/-- The eviction decision: with no EVICT in the queue and a member over the limit, an EVICT of the lowest-numbered one is placed
(R58). It is taken with presence duties only (R52). -/
def decideEviction (s : State) : State :=
  if present s.sc.state && !hasEntry .evict s then
    match evictionTarget s with
    | some t => placeEntry (.evict t) s
    | none => s
  else s

/-- A QUEUED station entry is due (R148); request entries and SYNC_ASK, ENROL and DEPART entries are not tested. That no own frame
other than a BEACON has been applied since a BEACON was placed holds by R55, which withdraws it then. -/
def entryDue (s : State) (c : Content) : Bool :=
  match c with
  | .evict t => s.au.replica.roster[t] && overAbsence s t
  | .page => feederDuty s
  | .beacon => present s.sc.state
  | .found => s.sc.state == .founding
  | _ => true

/-- An owner's QUEUED entry is no longer due. -/
def staleEntry (o : Owner) (s : State) : Bool :=
  s.oq.entries.any fun e => !e.contending && ownerOf e.content == o && !entryDue s e.content

/-- The QUEUED entries that are no longer due removed (R148). -/
def removeStale (s : State) : State := cancelQueued (fun e => !entryDue s e.content) s

/-- The revalidation of the outbound queue: entries no longer due are removed, and their owners told (R59, R148). -/
def revalidate (s : State) : State :=
  let t := removeStale s
  let t := if staleEntry .beacon s then t.withPm { t.pm with beaconAge := none } else t
  if staleEntry .evict s then decideEviction t else t

/-- The revalidation of a queued EVICT alone, as the Presence Monitor's last reaction to a report (R59, R71 step 7). -/
def revalidateEvict (s : State) : State :=
  if staleEntry .evict s then
    decideEviction (cancelQueued (fun e => ownerOf e.content == .evict && !entryDue s e.content) s)
  else s

/-! ### Fencing -/

/-- The set of fence causes: whether CONTACT and whether QUORUM is present (R61). -/
def fenceSet (s : State) : Bool × Bool := (s.pm.contact, s.pm.quorum)

/-- The notices of one change of the fence set, from the causes a to the causes b: FENCED for a cause that entered, UNFENCED with the
cause that left when the set has become empty (R62). -/
def fenceNotices (a b : Bool × Bool) (s : State) : State :=
  let s1 := if b.1 && !a.1 then stationNotice .fenced none (.fence .contact) s else s
  let s2 := if b.2 && !a.2 then stationNotice .fenced none (.fence .quorum) s1 else s1
  if b.1 || b.2 then s2
  else if a.2 then stationNotice .unfenced none (.fence .quorum) s2
  else if a.1 then stationNotice .unfenced none (.fence .contact) s2
  else s2

/-- The Grant Line Unit's reaction to one change of the fence set: guards stop when the station becomes fenced, and the guards of HELD
locks restart when it becomes unfenced (R64, R130). -/
def fenceGuards (a b : Bool × Bool) (s : State) : State :=
  if (a.1 || a.2) = (b.1 || b.2) then s else if b.1 || b.2 then stopAllGuards s else restartHeldGuards s

/-- The notices and guards of one change of the fence set, from the causes a to the causes b (R62, R64, R130). -/
def fenceChanged (a b : Bool × Bool) (s : State) : State := fenceGuards a b (fenceNotices a b s)

/-- QUORUM, the quorum-attained flag and the stranding timer evaluated on the roster count, in MEMBER (R61, R66, R67). -/
def evaluateQuorum (s : State) : State :=
  if s.sc.state = .member then
    let below := decide (countOf s.au.replica.roster < quorumOf s)
    let attained := s.pm.attained || !below
    s.withPm { s.pm with
      quorum := below, attained := attained,
      stranding := if below && attained then some (s.pm.stranding.getD 0) else none }
  else s

/-! ### Reports -/

/-- An own frame applied: the own-contact timer restarts, a QUEUED BEACON is withdrawn by any other kind, and CONTACT leaves the set
(R53, R55, R71 step 1). -/
def ownFrameApplied (k : Kind) (s : State) : State :=
  let t := s.withPm { s.pm with ownContact := 0, contact := false }
  if k = .beacon then t
  else if t.oq.entries.any (fun e => !e.contending && ownerOf e.content == .beacon) then
    (cancelQueued (fun e => ownerOf e.content == .beacon) t).withPm { t.pm with beaconAge := none }
  else t

/-- Another member's frame applied: its silence timer restarts (R57, R71 step 2). -/
def memberHeard (t : Station) (s : State) : State :=
  if s.pm.silence[t].isSome then s.withPm { s.pm with silence := putAt s.pm.silence t (some 0) } else s

/-- A member added: its silence timer starts and PEER_JOINED is placed (R57, R70, R71 step 3). -/
def memberAdded (t : Station) (s : State) : State :=
  evaluateQuorum
    (if t = s.station then s
     else stationNotice .peerJoined (some t) .none (s.withPm { s.pm with silence := putAt s.pm.silence t (some 0) }))

/-- A member removed: its silence timer is discarded and PEER_LEFT is placed (R57, R70, R71 step 4). -/
def memberRemoved (t : Station) (why : LeftCause) (s : State) : State :=
  evaluateQuorum
    (if t = s.station then s
     else stationNotice .peerLeft (some t) (.left why) (s.withPm { s.pm with silence := putAt s.pm.silence t none }))

/-- The Presence Monitor's step 1 or 2 on an APPLIED report (R71). -/
def senderReport (rep : Report) (s : State) : State :=
  if rep.own then ownFrameApplied rep.kind s else memberHeard rep.sender s

/-- The Presence Monitor's step 3 on an APPLIED report (R71). -/
def addedReport (rep : Report) (s : State) : State :=
  match rep.added with
  | some m => memberAdded m s
  | none => s

/-- The Presence Monitor's step 4 on an APPLIED report (R71). -/
def removedReport (rep : Report) (s : State) : State :=
  match rep.removed with
  | some (m, why) => memberRemoved m why s
  | none => s

/-- The Presence Monitor's steps 1 to 5 on an APPLIED report (R71). The fence set may change at step 1, at step 3 and at step 4; step 5
takes these changes one by one, in their order (R62; log entry 12). -/
def presenceReport (rep : Report) (s : State) : State :=
  let heard := senderReport rep s
  let added := addedReport rep heard
  let removed := removedReport rep added
  fenceChanged (fenceSet added) (fenceSet removed)
    (fenceChanged (fenceSet heard) (fenceSet added) (fenceChanged (fenceSet s) (fenceSet heard) removed))

/-- The presence state on entry to MEMBER (R72). -/
def presenceEntry (s : State) : State :=
  let below := decide (countOf s.au.replica.roster < quorumOf s)
  let t := s.withPm
    { ownContact := 0, beaconAge := none,
      silence := tabulate fun m => if s.au.replica.roster[m] && m != s.station then some 0 else none,
      contact := false, quorum := below, attained := !below, stranding := none }
  if below then stationNotice .fenced none (.fence .quorum) t else t

end Sys2Proof.Machine
end

