-- ==== Sys2Proof/Machine/Station.lean ====
section
/-! DEFINITION. The Station Controller: the change of station state with the values that go with each state (R30, R39, R52, R73,
R74, R103, R130, R155, R179), the drop (R94, R95), entry to MEMBER (R72, R79, R90, R139), and feeder duty (R98, R100). -/

namespace Sys2Proof.Machine

/-- The fault counts of the Line Controller returned to 0 (R176, R177). -/
def clearFaults (x : LineController) : LineController :=
  { x with rxFaults := 0, faultSenders := noStations, faultUnknown := false, txFaults := 0 }

/-- The presence state without what is kept in MEMBER only (R66, R67, R73). -/
def leaveMember (x : PresenceMonitor) : PresenceMonitor :=
  { x with contact := false, quorum := false, attained := false, stranding := none }

/-- The station state changes. The join timers return to 0 and the stale-membership mark, which is of ENROLLING, is clear (R74);
outside MEMBER the guards stop, the fence set is empty and the flag and stranding timer are clear (R61, R66, R67, R130); outside
MEMBER and DEPARTING the presence state is idle and the hold list empty (R52, R103); outside the voting states the replica and the
collection are clear (R30); on entering or leaving the voting states the fault counts and the mismatch streak are cleared (R39, R176,
R177; log entry 13), and on leaving them the outbound queue is purged (R155). -/
def enterState (x : StationState) (s : State) : State :=
  let was := voting s.sc.state
  let s := s.withSc { s.sc with state := x, foundingTimer := 0, roundTimer := 0, staleMark := false }
  let s := if x = .member then s else (stopAllGuards s).withPm (leaveMember s.pm)
  let s := if present x then s else (s.withPm .idle).withRt .empty
  let s := if was = voting x then s else (s.withLc (clearFaults s.lc)).withAu (clearStreak s.au)
  if voting x then s
  else
    let s := (s.withAu .cleared).withTc .cleared
    if was then purgeAll s else s

/-- Why the station is dropped (R94). -/
inductive DropCause where
  | ouster
  | desync
  | stranding
  | mute
  | duplicate
  deriving DecidableEq, Repr

/-- The states in which a cause drops the station (R94). -/
def dropsIn : DropCause → StationState → Bool
  | .ouster, x => present x
  | .desync, x => voting x
  | .stranding, x => x == .member
  | .mute, x => voting x
  | .duplicate, x => voting x

/-- The notice of a drop (R94). -/
def dropNotice : DropCause → NoticeKind
  | .ouster => .ousted
  | .desync => .desynced
  | .stranding => .stranded
  | .mute => .lineMute
  | .duplicate => .duplicateStation

/-- A cause after which the station rejoins if its auto-rejoin flag is set (R94, R97). -/
def rejoinsAfter : DropCause → Bool
  | .ouster => true
  | .desync => true
  | .stranding => true
  | .mute => false
  | .duplicate => false

/-- The auto-rejoin flag of the configuration record (R97). -/
def autoRejoin (s : State) : Bool :=
  match s.sc.config with
  | some c => c.autoRejoin
  | none => false

/-- The state a drop leaves the station in: LISTEN with auto-rejoin set, after an ouster, desync or stranding, unless it was
DEPARTING; otherwise READY (R94, R97). -/
def dropState (c : DropCause) (s : State) : StationState :=
  if rejoinsAfter c && autoRejoin s && s.sc.state != .departing then .listen else .ready

/-- The drop, in the order of R95: the lines inactive, the hold list cleared with REVOKED notices, the queue purged, the replica, streak
and presence state cleared and the station state changed, then the cause's notice. The collision count is cleared (R175, R179). A
drop into LISTEN clears the ask count (R95). A cause reported in a state in which it does not drop the station has no effect
(R94). -/
def drop (c : DropCause) (s : State) : State :=
  if dropsIn c s.sc.state then
    let x := dropState c s
    let t := enterState x (purgeAll (revokeAll (stopAllGuards s)))
    let t := t.withLc { t.lc with collisions := 0 }
    let t := t.withSc { t.sc with askCount := if x = .listen then 0 else t.sc.askCount }
    stationNotice (dropNotice c) none .none t
  else s

/-- The Transfer Controller's care for feeder duty: with the duty one PAGE entry is kept, without it a QUEUED PAGE is removed (R98,
R100). -/
def keepFeeding (s : State) : State :=
  if feederDuty s then (if hasEntry .page s then s else placeEntry .page s)
  else cancelQueued (fun e => ownerOf e.content == .page) s

/-- The request inputs examined once on entry to MEMBER: the ignore marks cleared, then each bound and asserted pin claims, in pin
order (R136, R139). -/
def examinePins (s : State) : State :=
  (List.finRange 4).foldl (fun t p => evaluatePin p t)
    (s.withRi { inputs := tabulate fun p => { s.ri.inputs[p] with ignored := false } })

/-- Entry to MEMBER, its station notice, the presence state with its FENCED notice, and the examination of the request inputs (R72,
R79, R90, R139). -/
def enterMember (k : NoticeKind) (s : State) : State :=
  examinePins (presenceEntry (stationNotice k none .none s))

/-- The replica of a founder (R30, R79). -/
def founderReplica (t : Station) : Replica :=
  { Replica.cleared with busSeq := 1, roster := addStation noStations t }

/-- The station founds the bus (R79). -/
def found (s : State) : State :=
  enterMember .founded ((enterState .member s).withReplica (founderReplica s.station))

/-- The station asks to join: ASKING, with a SYNC_ASK queued (R78, R80). -/
def ask (s : State) : State := placeEntry .syncAsk (enterState .asking s)

/-- The station gives up its join: READY, with a notice (R78, R80, R81, R83, R90). -/
def giveUpJoin (k : NoticeKind) (t : Option Station) (s : State) : State :=
  stationNotice k t .none (enterState .ready s)

/-- Another station's FOUND, observed in LISTEN or FOUNDING, by its profile (R78, R80). -/
def otherFound (f : Frame) (s : State) : State :=
  if sameProfile s f.payload then ask s else giveUpJoin .joinRefused (some f.sender) s

/-- Entry to COLLECTING from a page 0 with a BSEQ field (R30, R84). -/
def enterCollecting (q : BusSeq) (page : PageZero) (s : State) : State :=
  let t := enterState .collecting s
  let t := t.withReplica
    { busSeq := q + 1, roster := setOfList page.members, table := Vector.replicate 64 LockEntry.cleared,
      transfer := { running := true, feeder := page.feeder, round := page.round, nextPage := 1,
                    roundList := page.roundList, pendingList := page.pendingList } }
  let t := t.withTc { collected := 0, uncollected := Vector.replicate 64 true }
  t.withSc { t.sc with askCount := 0 }

/-- A page 0 observed in WAIT_ROUND (R82). -/
def observePageZero (f : Frame) (s : State) : State :=
  match readPageZero f.payload with
  | none => s
  | some page =>
    if s.station ∈ page.roundList then enterCollecting f.busSeq page s
    else if s.station ∈ page.pendingList then s.withSc { s.sc with roundTimer := 0 }
    else s

/-- An accepted frame observed at a non-voting station (R32, R78 to R82). -/
def observe (own : Bool) (f : Frame) (s : State) : State :=
  match s.sc.state with
  | .listen => if f.kind = .found ∧ own = false then otherFound f s else ask s
  | .founding =>
    if f.kind = .found then
      if own then found s
      else otherFound f (cancelQueued (fun e => e.content == .found) s)
    else s
  | .asking => if f.kind = .syncAsk ∧ own = true then enterState .waitRound s else s
  | .waitRound => if f.kind = .page ∧ byteAt f.payload 1 = 0 then observePageZero f s else s
  | _ => s

/-- The end of a joining frame at its sixteenth void, told to the Station Controller (R80, R81, R90, R151). -/
def joinAbandoned (c : Content) (s : State) : State :=
  match c, s.sc.state with
  | .found, .founding => giveUpJoin .joinFailed none s
  | .syncAsk, .asking => giveUpJoin .joinFailed none s
  | .enrol, .enrolling => giveUpJoin .joinFailed none s
  | _, _ => s

/-! ### Reports -/

/-- No member is left in the roster. -/
def rosterEmpty (s : State) : Bool := (lowestOf s.au.replica.roster).isNone

/-- The own DEPART of a stale membership has left the queue: the mark is cleared and a new ENROL placed, unless the roster is
empty (R91). -/
def staleDepartLeft (s : State) : State :=
  let t := s.withSc { s.sc with staleMark := false }
  if rosterEmpty t then t else placeEntry .enrol t

/-- The Station Controller on an own DEPART (R91, R93). -/
def ownDepart (rep : Report) (s : State) : State :=
  if rep.own ∧ rep.kind = .depart then
    match s.sc.state with
    | .departing =>
      if rep.disposition = .applied then stationNotice .departed none .none (enterState .ready s) else s
    | .enrolling => if s.sc.staleMark then staleDepartLeft s else s
    | _ => s
  else s

/-- The Station Controller on its own ENROL (R90, R91). -/
def ownEnrol (rep : Report) (s : State) : State :=
  if rep.own ∧ s.sc.state = .enrolling then
    match rep.enrol with
    | some .enrolled => enterMember .joined (enterState .member s)
    | some .alreadyMember => placeEntry .depart (s.withSc { s.sc with staleMark := true })
    | _ => s
  else s

/-- The Station Controller on a restarted or dissolved round, and on a roster emptied while ENROLLING (R88, R90). -/
def roundBroken (rep : Report) (s : State) : State :=
  match s.sc.state with
  | .collecting =>
    if rep.events.any (fun e => e == .roundRestarted || e == .roundDissolved) then enterState .waitRound s else s
  | .enrolling => if rep.removed.isSome && rosterEmpty s then enterState .listen s else s
  | _ => s

/-- Page 16 installed: the collected count has reached 16, and the station moves to ENROLLING with an ENROL queued (R87). -/
def collectionDone (s : State) : State :=
  if s.sc.state = .collecting ∧ s.tc.collected = 16 then placeEntry .enrol (enterState .enrolling s) else s

/-- The Station Controller's reactions to a report, in the order of its fields (R38). -/
def stationReport (rep : Report) (s : State) : State :=
  let s := ownEnrol rep (ownDepart rep s)
  let s := collectionDone (roundBroken rep s)
  if rep.desync || rep.imageFailure then drop .desync s else s

/-- The Request Tracker at the own DEPART: every record cleared, with REVOKED notices (R124). -/
def departHolds (rep : Report) (s : State) : State :=
  if rep.own ∧ rep.kind = .depart ∧ rep.disposition = .applied ∧ s.sc.state = .departing then revokeAll s else s

/-- An EVICT naming this station, applied in MEMBER or DEPARTING (R69). -/
def ousts (rep : Report) (s : State) : Bool :=
  rep.removed == some (s.station, .evicted) && present s.sc.state

/-- The Presence Monitor's reactions to an APPLIED report, in the order of R71, and the eviction decision when an own EVICT has left
the queue (R58). -/
def presenceReactions (rep : Report) (s : State) : State :=
  if present s.sc.state then
    let t := presenceReport rep s
    let t := if ousts rep s then drop .ouster t else t
    revalidateEvict (if rep.own ∧ rep.kind = .evict then decideEviction t else t)
  else s

/-- The reactions of the blocks to a report: the Request Tracker, the Presence Monitor, the Station Controller and the Transfer
Controller, then the revalidation of the outbound queue after an application (R38, R71, R148). -/
def reactApplied (rep : Report) (s : State) : State :=
  let t := departHolds rep (takeOutcomes rep.outcomes s)
  let t := keepFeeding (stationReport rep (presenceReactions rep t))
  if voting t.sc.state then revalidate t else t

/-- The reactions to a report that is not APPLIED: an own entry has left the queue, and the Station Controller takes the disposition of
an own DEPART and a desync (R36, R38, R40, R91; log entry 16). -/
def reactOther (rep : Report) (s : State) : State :=
  let t := if rep.own ∧ rep.kind = .evict then decideEviction s else s
  keepFeeding (stationReport rep t)

/-- The report of the Apply Unit handed on (R38). -/
def handOn (rep : Report) (s : State) : State :=
  if rep.disposition = .applied then reactApplied rep s else reactOther rep s

/-- An own entry removed at acceptance; the beacon age is discarded with a BEACON (R55, R152). -/
def ownAccepted (k : Kind) (s : State) : State :=
  let t := removeContending (s.withLc { s.lc with sending := none })
  if k = .beacon then t.withPm { t.pm with beaconAge := none } else t

/-- An accepted frame at this station: the Apply Unit of a voting station takes it, the outbound queue removes an own entry before any
block acts on the report (R33, R152); at a non-voting station the entry is removed and the frame observed (R32, R152). -/
def acceptFrame (own : Bool) (f : Frame) (s : State) : State :=
  if voting s.sc.state then
    let x := takeFrame own f s
    handOn x.2 (if own then ownAccepted f.kind x.1 else x.1)
  else observe own f (if own then ownAccepted f.kind s else s)

end Sys2Proof.Machine
end

