-- ==== Sys2Proof/Machine/Port.lean ====
section
/-! DEFINITION. The host port (chapter Host Port and Notices): the bytes and phases of a transaction (R180, R181), the take of a command
(R182), what SDO shifts out (R185, R201), and the bytes of results and notice records (R206 to R208). -/

namespace Sys2Proof.Machine

/-! ### Codes -/

/-- The command codes (R206). -/
def commandOfCode (b : Byte) : Option HostCommand :=
  if b = 0x10 then some .configure else if b = 0x11 then some .join else if b = 0x12 then some .leave
  else if b = 0x13 then some .reset else if b = 0x20 then some .claim else if b = 0x21 then some .yield
  else if b = 0x22 then some .withdraw else if b = 0x23 then some .renew else if b = 0x30 then some .readLock
  else if b = 0x31 then some .readRoster else if b = 0x32 then some .readHolds else if b = 0x33 then some .readNotice
  else if b = 0x34 then some .readStatus else none

/-- The code of a command (R206). -/
def codeOf : HostCommand → Byte
  | .configure => 0x10
  | .join => 0x11
  | .leave => 0x12
  | .reset => 0x13
  | .claim => 0x20
  | .yield => 0x21
  | .withdraw => 0x22
  | .renew => 0x23
  | .readLock => 0x30
  | .readRoster => 0x31
  | .readHolds => 0x32
  | .readNotice => 0x33
  | .readStatus => 0x34

/-- The number of argument bytes of a command (R182). -/
def argumentBytes : HostCommand → Nat
  | .configure => 20
  | .claim => 3
  | .yield => 1
  | .withdraw => 1
  | .renew => 1
  | .readLock => 1
  | _ => 0

/-- The result codes (R206). -/
def resultByte : ResultCode → Byte
  | .ok => 0x00
  | .state => 0x01
  | .order => 0x02
  | .pending => 0x03
  | .held => 0x04
  | .notHeld => 0x05
  | .notWaiting => 0x06
  | .pinBound => 0x07
  | .range => 0x08
  | .locked => 0x09
  | .empty => 0x0A
  | .unknown => 0x0B

/-- The station state codes (R207). -/
def stateByte : StationState → Byte
  | .unconfigured => 0x00
  | .ready => 0x01
  | .listen => 0x02
  | .founding => 0x03
  | .asking => 0x04
  | .waitRound => 0x05
  | .collecting => 0x06
  | .enrolling => 0x07
  | .member => 0x08
  | .departing => 0x09

/-- The origin codes (R207). -/
def originByte : Origin → Byte
  | .host => 0x00
  | .req p => BitVec.ofNat 8 (p.val + 1)

/-- The record state codes (R207). -/
def recordStateByte : RecordState → Byte
  | .claiming => 0x01
  | .claimCancel => 0x02
  | .waiting => 0x03
  | .withdrawing => 0x04
  | .held => 0x05
  | .yielding => 0x06

/-- The notice kind codes (R208). -/
def noticeKindByte : NoticeKind → Byte
  | .granted => 0x01
  | .queued => 0x02
  | .refusedBusy => 0x03
  | .refusedFull => 0x04
  | .withdrawn => 0x05
  | .tooLate => 0x06
  | .yielded => 0x07
  | .expired => 0x08
  | .claimFailed => 0x09
  | .revoked => 0x0A
  | .pinRefused => 0x0B
  | .founded => 0x20
  | .joined => 0x21
  | .joinRefused => 0x22
  | .joinFailed => 0x23
  | .departed => 0x24
  | .ousted => 0x25
  | .desynced => 0x26
  | .stranded => 0x27
  | .lineMute => 0x28
  | .duplicateStation => 0x29
  | .fenced => 0x2A
  | .unfenced => 0x2B
  | .resetDone => 0x2C
  | .peerJoined => 0x40
  | .peerLeft => 0x41

/-- The qualifier byte (R208). -/
def qualifierByte : Qualifier → Byte
  | .none => 0x00
  | .stale m => if m then 0x01 else 0x00
  | .fence .contact => 0x01
  | .fence .quorum => 0x02
  | .left .evicted => 0x01
  | .left .departed => 0x02

/-- A count as one byte. -/
def countByte (k : Nat) : Byte := BitVec.ofNat 8 k

/-- A byte with a mark in bit 0. -/
def markByte (m : Bool) : Byte := if m then 1 else 0

/-- A lock number or the code for none (R201). -/
def optLockByte : Option Lock → Byte
  | some l => lockByte l
  | none => 0xFF

/-- A generation, or 0 when absent (R207, R208). -/
def optGenerationBytes (g : Option Generation) : List Byte := generationBytes (g.getD 0)

/-- Stations in order, with the code for none up to a number of positions (R204, R207). -/
def stationPositions (width : Nat) (l : List Station) : List Byte :=
  (l.map stationByte ++ List.replicate width 0xFF).take width

/-! ### Records -/

/-- The 10 bytes of a notice record (R208). -/
def noticeBytes (x : Notice) : List Byte :=
  [noticeKindByte x.kind, optLockByte x.lock, optStationByte x.station, qualifierByte x.qualifier, markByte x.generation.isSome]
    ++ optGenerationBytes x.generation ++ busSeqBytes x.busSeq

/-- The standing of a lock entry: 0x00 LIVE, 0x01 UNCOLLECTED, 0x02 NO_REPLICA (R191, R207). -/
def standingByte (s : State) (l : Lock) : Byte :=
  match s.sc.state with
  | .enrolling => 0x00
  | .member => 0x00
  | .departing => 0x00
  | .collecting => if s.tc.uncollected[l] then 0x01 else 0x00
  | _ => 0x02

/-- The result data of READ_LOCK, 17 bytes (R191, R207). -/
def readLockBytes (s : State) (l : Lock) : List Byte :=
  let e := s.au.replica.table[l]
  [lockByte l, standingByte s l, optStationByte e.holder] ++ generationBytes e.generation
    ++ countByte e.waiters.length :: stationPositions 8 e.waiters ++ busSeqBytes s.au.replica.busSeq

/-- One byte of the member marks: stations base to base + 7, the lowest in bit 0 (R207). -/
def memberMarks (m : StationSet) (base : Nat) : Byte :=
  (List.finRange 8).foldl
    (fun b i => if m[(Fin.ofNat 32 (base + i.val) : Station)] then b ||| BitVec.ofNat 8 (2 ^ i.val) else b) 0

/-- The result data of READ_ROSTER, 22 bytes (R192, R207). -/
def readRosterBytes (s : State) : List Byte :=
  let r := s.au.replica
  let x := r.transfer
  [countByte (countOf r.roster), memberMarks r.roster 24, memberMarks r.roster 16, memberMarks r.roster 8,
    memberMarks r.roster 0, markByte x.running, stationByte x.feeder, x.round, countByte x.nextPage]
    ++ countByte x.roundList.length :: stationPositions 4 x.roundList
    ++ countByte x.pendingList.length :: stationPositions 4 x.pendingList ++ busSeqBytes r.busSeq

/-- The time remaining of a running hold timer in units of 10 ms: the limit less the whole units elapsed (R193, R207). -/
def timeRemaining (r : HoldRecord) : Option Nat :=
  match r.state, r.holdTimer with
  | .held, some time => some (r.holdLimit.toNat - time / 10)
  | _, _ => none

/-- The 8 bytes of a slot record (R127, R193, R207). -/
def slotBytes : Option HoldRecord → List Byte
  | none => [0xFF, 0, 0, 0, 0, 0, 0, 0]
  | some r =>
    [lockByte r.lock, originByte r.origin, recordStateByte r.state, r.holdLimit,
      markByte r.generation.isSome ||| (markByte r.withdrawAsked <<< 1) ||| (markByte (timeRemaining r).isSome <<< 2)]
      ++ optGenerationBytes r.generation ++ [countByte ((timeRemaining r).getD 0)]

/-- The result data of READ_HOLDS, 64 bytes; outside MEMBER and DEPARTING every slot is reported empty (R193, R207). -/
def readHoldsBytes (s : State) : List Byte :=
  (List.finRange 8).flatMap fun t => slotBytes (if present s.sc.state then s.rt.slots[t] else none)

/-- The result data of READ_STATUS, 13 bytes (R194, R207). -/
def readStatusBytes (s : State) : List Byte :=
  [stateByte s.sc.state, markByte s.pm.contact ||| (markByte s.pm.quorum <<< 1),
    markByte s.pm.attained ||| (markByte s.hp.overflow <<< 1) ||| (markByte s.hp.truncated <<< 2)]
    ++ busSeqBytes s.au.replica.busSeq
    ++ [countByte (countOf s.au.replica.roster), countByte s.hp.notices.length, stationByte s.station,
      s.bitRate.setWidth 8, countByte s.lc.rxFaults, countByte s.lc.txFaults, countByte s.lc.collisions]

/-! ### The take of a command -/

/-- What a block answers to a command: the new state, the result code and the result data. -/
abbrev Answer := State × ResultCode × List Byte

/-- An answer of a code alone. -/
def answer (c : ResultCode) (s : State) : Answer := (s, c, [])

/-- The port is at the command byte of a transaction, and no hard reset is in progress (R180, R181, R209). -/
def portOpen (s : State) : Bool := !s.inReset && s.hp.phase == .command

/-- The bytes from the host up to the take: the command byte and the arguments of the command; an unknown code has none (R182, R184). -/
def takeBytes (p : HostPort) : Nat := 1 + (p.taken.map argumentBytes).getD 0

/-- A byte from the host, its eighth bit received: the command byte picks the command by its code, and the last byte before the turnaround
leads to it; the bytes of the later phases are disregarded (R180, R181, R184). -/
def receiveByte (p : HostPort) (b : Byte) : HostPort :=
  match p.phase with
  | .command =>
    let q := { p with bits := 8, taken := commandOfCode b }
    { q with phase := if takeBytes q = 1 then .turnaround else .arguments }
  | .arguments =>
    { p with bits := p.bits + 8, phase := if 8 * takeBytes p ≤ p.bits + 8 then .turnaround else .arguments }
  | _ => p

/-- The answer of a block held for the result phase (R182). -/
def holdResult (a : Answer) : State :=
  a.1.withHp { a.1.hp with resultCode := some a.2.1, resultData := a.2.2 }

/-- The bytes of a transaction from its command byte to the take of its command; its owning block then acts and answers in the same
step (R181, R182). When no transaction is at its command byte, they are disregarded (R180; R209 during a hard reset; log entry 4). -/
def takeTransaction (bytes : List Byte) (act : State → Answer) (s : State) : State :=
  if portOpen s then holdResult (act (s.withHp (bytes.foldl receiveByte s.hp))) else s

/-- A command taken with its argument bytes (R182). -/
def takeCommand (c : HostCommand) (args : List Byte) (act : State → Answer) (s : State) : State :=
  takeTransaction (codeOf c :: args) act s

/-! ### What SDO shifts out -/

/-- The bytes of the result phase: the result code, then the result data (R185). -/
def resultBytes (p : HostPort) : List Byte :=
  match p.resultCode with
  | some c => resultByte c :: p.resultData
  | none => []

/-- The SCK cycles of a transaction to the last bit of its result: the bytes to the take, the turnaround byte and the result (R181). -/
def resultEnd (p : HostPort) : Nat := 8 * (takeBytes p + 1 + (resultBytes p).length)

/-- The filler byte (R201). -/
def fillerByte : Byte := 0x00

/-- The byte that SDO shifts out: a byte of the result in the result phase, filler in every other phase (R180, R185, R201). -/
def sdoByte (p : HostPort) : Byte :=
  match p.phase with
  | .result => (resultBytes p).getD (p.bits / 8 - takeBytes p - 1) fillerByte
  | _ => fillerByte

/-- The level of SDO: at high impedance with no transaction, otherwise the bit of its byte, most significant first (R180). -/
def sdoLevel (p : HostPort) : Option Bool :=
  if p.phase = .idle then none else some ((sdoByte p).getLsbD (7 - p.bits % 8))

/-- One SCK cycle after the take (R181): the turnaround byte leads to the result, and the last bit of the result to the filler. -/
def clockBit (p : HostPort) : HostPort :=
  match p.phase with
  | .turnaround =>
    { p with bits := p.bits + 1, phase := if 8 * (takeBytes p + 1) ≤ p.bits + 1 then .result else .turnaround }
  | .result => { p with bits := p.bits + 1, phase := if resultEnd p ≤ p.bits + 1 then .filler else .result }
  | .filler => { p with bits := p.bits + 1 }
  | _ => p

/-- So many SCK cycles after the take. -/
def clockBits : Nat → HostPort → HostPort
  | 0, p => p
  | k + 1, p => clockBits k (clockBit p)

/-- The levels of SDO in so many SCK cycles after the take. -/
def shiftOut : Nat → HostPort → List (Option Bool)
  | 0, _ => []
  | k + 1, p => sdoLevel p :: shiftOut k (clockBit p)

/-- The last byte of a READ_NOTICE or READ_STATUS result: its end is the completion, a command of its own (R185). -/
def awaitsCompletion (p : HostPort) : Bool :=
  (p.taken == some .readNotice || p.taken == some .readStatus) && p.phase == .result && decide (resultEnd p ≤ p.bits + 8)

/-- The host's clock in a millisecond in which no command waits: one byte of the turnaround or of the result, but not the byte that a
completion command ends (log entry 24). -/
def hostClock (p : HostPort) : HostPort :=
  if (p.phase = .turnaround ∨ p.phase = .result) ∧ awaitsCompletion p = false then clockBits 8 p else p

/-! ### The soft reset -/

/-- The soft reset (R96, R74, R156, R179, R189): lines inactive, hold list, queue, replica and presence state cleared, TXD released at
once with the line in SEEKING, the join timers stopped, the notice queue and flags emptied, and RESET_DONE placed. DESIGN CHOICE: the count of
recessive bits, for which R163 and R179 give no value at a reset, is 0, and the receive cell buffer and the CRC register stay as they are (log
entry 19). -/
def softReset (s : State) : State :=
  let lc := clearFaults { s.lc with state := .seeking, sending := none, recessive := 0, collisions := 0 }
  let sc : StationController :=
    { StationController.reset with
      state := if s.sc.config.isSome then .ready else .unconfigured, config := s.sc.config }
  let hp := { s.hp with notices := [], overflow := false, truncated := false, lateOverflow := false }
  stationNotice .resetDone none .none
    { s with lc := lc, au := .cleared, pm := .idle, sc := sc, tc := .cleared, rt := .empty, oq := { entries := [] },
             gl := .stopped, hp := hp }

end Sys2Proof.Machine
end

