-- ==== Sys2Proof/Decode.lean ====
section
/-! DEFINITION. The commands that bytes spell: those of a host port transaction (R180, R182, R184, R206), the one encoding of commands that
the manual gives. Frames reach the station as cells, which the machine reads from the commands' operands (log entries 9 and 31). -/

namespace Sys2Proof

/-- A bit sampled on SDI gathered into a byte, most significant bit first (R180). -/
def gatherBit (b : Byte) (bit : Bool) : Byte := (b <<< 1) ||| (if bit then 1 else 0)

/-- The bits sampled on SDI gathered into bytes; a byte that is not whole is left out (R180). -/
def bytesOfBits : List Bool → List Byte
  | a :: b :: c :: d :: e :: f :: g :: h :: rest => [a, b, c, d, e, f, g, h].foldl gatherBit 0 :: bytesOfBits rest
  | _ => []

/-- The command of a code with its argument bytes in order (R182, R206). -/
def commandWith (c : Machine.HostCommand) (args : List Byte) : Instr :=
  let arg (i : Nat) : Byte := args.getD i 0
  match c with
  | .configure => .configureCommand (Machine.tabulate fun i => arg i.val)
  | .join => .joinCommand
  | .leave => .leaveCommand
  | .reset => .resetCommand
  | .claim => .claimCommand (arg 0) (arg 1) (arg 2)
  | .yield => .yieldCommand (arg 0)
  | .withdraw => .withdrawCommand (arg 0)
  | .renew => .renewCommand (arg 0)
  | .readLock => .readLockCommand (arg 0)
  | .readRoster => .readRosterCommand
  | .readHolds => .readHoldsCommand
  | .readNotice => .readNoticeCommand
  | .readStatus => .readStatusCommand

/-- The command that the bytes of a transaction come to, or none while it is not whole. The command byte picks it by its code; the bytes after
its arguments, and those after an unknown code, are disregarded (R180, R182, R184, R206). -/
def commandOfBytes : List Byte → Option Instr
  | [] => none
  | code :: args =>
    match Machine.commandOfCode code with
    | none => some (.unknownCommand code)
    | some c => if Machine.argumentBytes c ≤ args.length then some (commandWith c args) else none

/-- The command that the bits sampled on SDI in a transaction come to (R180). -/
def commandOfBits (sdi : List Bool) : Option Instr := commandOfBytes (bytesOfBits sdi)

/-- The first bytes of a word, the byte in its lowest bits first. -/
def wordBytes : Nat → Nat → List Byte
  | 0, _ => []
  | k + 1, w => BitVec.ofNat 8 w :: wordBytes k (w / 256)

/-- The command that a word spells, its bytes taken as those of a host port transaction, with zeros behind the bits given. No row of
spec/opcode_table.json gives any bits, so that the words are read so is the model's choice (log entry 31). -/
def decodeTableWord (nbits w : Nat) : Option Instr :=
  if nbits < 8 then none else commandOfBytes (wordBytes (nbits / 8) w ++ List.replicate 20 0)

end Sys2Proof
end

