-- ==== Sys2Proof/Machine/Timers.lean ====
section
/-! DEFINITION. The meanings of the timer limits. Each command is the limit itself: a timer that does not run cannot reach it, and the
running timer stands at its limit, or above it, when the command is taken (log entry 3). -/

namespace Sys2Proof.Machine

/-- A timer that has reached a limit. -/
def reached (limit time : Nat) : Nat := max time limit

/-- The own-contact timer has reached P: a BEACON is placed at class 7 with age 0 when none is in the queue (R54). -/
def contactDue (s : State) : State :=
  let t := s.withPm { s.pm with ownContact := reached (beaconPeriod s) s.pm.ownContact }
  if hasEntry .beacon s then t else placeEntry .beacon (t.withPm { t.pm with beaconAge := some 0 })

/-- OWN_CONTACT_REACHES_P (R54). The timer runs in MEMBER and DEPARTING (R52, R53). -/
def execOwnContactReachesP (s : State) : Host.Outcome State Fault Refusal :=
  .next (if present s.sc.state then contactDue s else s)

/-- A BEACON entry at class 1 (R56, R146). -/
def promoteEntry (e : Entry) : Entry := if ownerOf e.content = .beacon then { e with cls := 1 } else e

/-- The BEACON's age has reached P: it is promoted; a CONTENDING BEACON carries the new class at its next attempt (R56, R146). -/
def promoteBeacon (s : State) : State :=
  let t := s.withPm { s.pm with beaconAge := s.pm.beaconAge.map (reached (beaconPeriod s)) }
  t.withEntries (s.oq.entries.map promoteEntry)

/-- BEACON_PROMOTED (R56). With no BEACON in the queue there is no beacon age. -/
def execBeaconPromoted (s : State) : Host.Outcome State Fault Refusal :=
  .next (if hasEntry .beacon s && s.pm.beaconAge.isSome then promoteBeacon s else s)

/-- The own-contact timer has reached 3P: CONTACT enters the set, with its FENCED notice, and the guards stop (R61, R62, R63, R130). -/
def contactFence (s : State) : State :=
  let t := s.withPm { s.pm with ownContact := reached (3 * beaconPeriod s) s.pm.ownContact, contact := true }
  fenceChanged (fenceSet s) (fenceSet t) t

/-- FENCE_LIMIT, in MEMBER (R52, R61). -/
def execFenceLimit (s : State) : Host.Outcome State Fault Refusal :=
  .next (if s.sc.state = .member then contactFence s else s)

/-- ABSENCE_LIMIT: a silence timer has reached 5P, and the eviction decision is taken (R58). -/
def execAbsenceLimit (member : Station) (s : State) : Host.Outcome State Fault Refusal :=
  .next
    (match s.pm.silence[member] with
    | some time =>
      decideEviction (s.withPm { s.pm with
        silence := putAt s.pm.silence member (some (reached (5 * beaconPeriod s) time)) })
    | none => s)

/-- STRANDING: the stranding timer has reached 10P, and the station is dropped (R68, R94). -/
def execStranding (s : State) : Host.Outcome State Fault Refusal :=
  .next (if s.pm.stranding.isSome then drop .stranding s else s)

/-- FOUNDING_WAIT: the founding timer has reached 8P, and a FOUND is placed in FOUNDING (R77). The JOINING place is free then (R143): an
entry that ran out its attempt under a discard mark has left long before (R155; log entry 4). -/
def execFoundingWait (s : State) : Host.Outcome State Fault Refusal :=
  .next (if s.sc.state = .listen ∧ hasEntry .joining s = false then placeEntry .found (enterState .founding s) else s)

/-- The round timer has reached 20P: the ask count advances, and the station listens again or gives up (R83, R89). -/
def roundOut (s : State) : State :=
  let t := s.withSc { s.sc with askCount := min 4 (s.sc.askCount + 1) }
  if s.sc.askCount + 1 < 4 then enterState .listen t else giveUpJoin .joinFailed none t

/-- ROUND_TIMEOUT: the round timer runs in WAIT_ROUND and COLLECTING (R83, R89). -/
def execRoundTimeout (s : State) : Host.Outcome State Fault Refusal :=
  .next
    (match s.sc.state with
    | .waitRound => roundOut s
    | .collecting => roundOut s
    | _ => s)

/-- A hold timer has reached its hold limit: the line drops, the record goes to YIELDING, the YIELD is placed or deferred, then the notice
EXPIRED (R122, R132). -/
def expireHold (r : HoldRecord) (s : State) : State :=
  lockNotice .expired r.lock r.generation .none (yieldRecord .expired r s)

/-- HOLD_EXPIRY: a hold timer runs on a HELD record in MEMBER only (R120, R121, R122). -/
def execHoldExpiry (slot : Tier) (s : State) : Host.Outcome State Fault Refusal :=
  .next
    (match s.rt.slots[slot] with
    | some r =>
      if s.sc.state = .member ∧ r.state = .held ∧ r.holdTimer.isSome = true then expireHold r s else s
    | none => s)

/-- A guard that has reached the guard time, if it was running. -/
def elapsedGuard : Guard → Guard
  | .running _ => .elapsed
  | g => g

/-- GUARD_ELAPSED: a running guard has reached the guard time; the line is active if R129 holds (R130). The guards of the lines bound to
one lock follow the same events, so they elapse together (R128). -/
def execGuardElapsed (line : GrantLine) (s : State) : Host.Outcome State Fault Refusal :=
  .next
    (match s.gl.guards[line] with
    | .running _ =>
      s.withGl { guards := tabulate fun n =>
        if grantBinding s n = grantBinding s line then elapsedGuard s.gl.guards[n] else s.gl.guards[n] }
    | _ => s)

end Sys2Proof.Machine
end

