-- ==== Sys2Proof/Machine/Clock.lean ====
section
/-! DEFINITION. What the station's own clock does when no command waits (log entries 1 and 2): the timer limits that are due, and the
passing of a millisecond. -/

namespace Sys2Proof.Machine

/-- The limits due of the timers that the station has one of. -/
def dueStation (s : State) : List Instr :=
  let p := beaconPeriod s
  let contact := if present s.sc.state && decide (p ≤ s.pm.ownContact) && !hasEntry .beacon s then
    [Instr.ownContactReachesP] else []
  let promote := if s.oq.entries.any (fun e => ownerOf e.content == .beacon && e.cls != 1)
      && s.pm.beaconAge.any (fun a => decide (p ≤ a)) then [Instr.beaconPromoted] else []
  let fence := if s.sc.state == .member && decide (3 * p ≤ s.pm.ownContact) && !s.pm.contact then
    [Instr.fenceLimit] else []
  let strand := if s.sc.state == .member && s.pm.stranding.any (fun a => decide (10 * p ≤ a)) then
    [Instr.stranding] else []
  let founding := if s.sc.state == .listen && decide (8 * p ≤ s.sc.foundingTimer) && !hasEntry .joining s then
    [Instr.foundingWait] else []
  let round := if (s.sc.state == .waitRound || s.sc.state == .collecting) && decide (20 * p ≤ s.sc.roundTimer) then
    [Instr.roundTimeout] else []
  contact ++ promote ++ fence ++ strand ++ founding ++ round

/-- The absence limit due: the lowest-numbered member over 5P, with no EVICT in the queue (R58). -/
def dueAbsence (s : State) : List Instr :=
  if present s.sc.state && !hasEntry .evict s then
    match evictionTarget s with
    | some t => [.absenceLimit t]
    | none => []
  else []

/-- The hold timer of a slot is at its hold limit (R122). -/
def expiryDue (s : State) (t : Tier) : Bool :=
  match s.rt.slots[t] with
  | some r => s.sc.state == .member && r.state == .held && r.holdTimer.any fun a => decide (10 * r.holdLimit.toNat ≤ a)
  | none => false

/-- The guard of a line is at the guard time (R130). -/
def guardDue (s : State) (n : GrantLine) : Bool :=
  match s.gl.guards[n] with
  | .running a => decide (guardTimeOf s ≤ a)
  | _ => false

/-- The debounce timer of a pin is at 2 ms (R135). -/
def debounceDue (s : State) (p : Pin) : Bool := s.ri.inputs[p].debounce.any fun a => decide (2 ≤ a)

/-- The timer limits due at this moment; none during a hard reset. -/
def dueLimits (s : State) : List Instr :=
  if s.inReset then []
  else
    dueStation s ++ dueAbsence s ++ ((List.finRange 8).filter (expiryDue s)).map Instr.holdExpiry
      ++ ((List.finRange 8).filter (guardDue s)).map Instr.guardElapsed
      ++ ((List.finRange 4).filter (debounceDue s)).map Instr.stableLevelChange

/-- The limit taken next: one of those due, a free choice among several (log entry 2). -/
def nextLimit (s : State) : Option Instr :=
  match dueLimits s with
  | [] => none
  | [c] => some c
  | c :: d :: rest => (c :: d :: rest)[Config.pick s.choices % (rest.length + 2)]?

/-- The state in which a due limit is taken: a choice among several is counted (log entry 2). -/
def countChoice (s : State) : State :=
  match dueLimits s with
  | _ :: _ :: _ => { s with choices := s.choices + 1 }
  | _ => s

/-- A guard one millisecond later. -/
def tickGuard : Guard → Guard
  | .running a => .running (a + 1)
  | g => g

/-- One millisecond passes: every running timer advances by one (log entry 1). -/
def tick (s : State) : State :=
  let pm := { s.pm with
    ownContact := if present s.sc.state then s.pm.ownContact + 1 else s.pm.ownContact,
    beaconAge := s.pm.beaconAge.map (· + 1), silence := s.pm.silence.map (Option.map (· + 1)),
    stranding := s.pm.stranding.map (· + 1) }
  let sc := { s.sc with
    foundingTimer := if s.sc.state = .listen then s.sc.foundingTimer + 1 else s.sc.foundingTimer,
    roundTimer := if s.sc.state = .waitRound ∨ s.sc.state = .collecting then s.sc.roundTimer + 1 else s.sc.roundTimer }
  { s with
    pm := pm, sc := sc,
    rt := { slots := s.rt.slots.map (Option.map fun r => { r with holdTimer := r.holdTimer.map (· + 1) }) },
    gl := { guards := s.gl.guards.map tickGuard },
    ri := { inputs := s.ri.inputs.map fun i => { i with debounce := i.debounce.map (· + 1) } } }

/-- The passing of a millisecond at an idle station: its timers run, and the host clocks one byte of an answer that is not shifted out yet
(log entry 24). During a hard reset no timer runs (R209). -/
def passTime (s : State) : State := if s.inReset then s else (tick s).withHp (hostClock s.hp)

end Sys2Proof.Machine
end

