-- ==== Sys2Proof/Machine/Line.lean ====
section
/-! DEFINITION. The Line Controller and the attempts of the Outbound Queue: bus opportunities (R147 to R149, R166), the start of a frame
(R165), the end of an attempt without acceptance (R150, R151, R154), the line fault counts (R175 to R177), and the meanings of the
line events. -/

namespace Sys2Proof.Machine

/-! ### Selection -/

/-- The flags of a frame: the reason bit of a YIELD, 0 for the other kinds (R202). -/
def flagsOf : Content → BitVec 4
  | .yield _ _ why => reasonFlags why
  | _ => 0

/-- The profile bytes that a frame carries (R51, R203); none with no configuration record (log entry 22). -/
def profilePayload (s : State) : List Byte :=
  match s.sc.config with
  | some c => profileBytes c
  | none => []

/-- The payload of a frame at its start bit (R99, R142, R203, R204). -/
def payloadOf (c : Content) (s : State) : List Byte :=
  match c with
  | .claim l m => [lockByte l, modeByte m]
  | .yield l g _ => lockByte l :: generationBytes g
  | .withdraw l => [lockByte l]
  | .evict t => [stationByte t]
  | .depart => []
  | .beacon => profilePayload s
  | .syncAsk => profilePayload s
  | .page => composePage s.au.replica
  | .enrol => profilePayload s
  | .found => profilePayload s

/-- The frame of an entry, with the values filled at the start bit of its attempt (R33, R149). -/
def composeFrame (e : Entry) (s : State) : Frame :=
  { cls := e.cls, sender := s.station, kind := kindOf e.content, flags := flagsOf e.content,
    busSeq := s.au.replica.busSeq, payload := payloadOf e.content s }

/-- A QUEUED entry of the lowest class among the QUEUED entries (R149). -/
def preferred (l : List Entry) (e : Entry) : Bool :=
  !e.contending && l.all fun x => x.contending || decide (e.cls ≤ x.cls)

/-- The first entry of the list that satisfies p made CONTENDING. -/
def contendFirst (p : Entry → Bool) : List Entry → List Entry
  | [] => []
  | e :: rest => if p e then { e with contending := true } :: rest else e :: contendFirst p rest

/-- The selection: the oldest QUEUED entry of the lowest class becomes CONTENDING, and its frame is filled in; with no QUEUED entry
nothing is sent (R148, R149). -/
def selectEntry (s : State) : State :=
  match s.oq.entries.find? (preferred s.oq.entries) with
  | some e =>
    (s.withEntries (contendFirst (preferred s.oq.entries) s.oq.entries)).withLc
      { s.lc with sending := some (composeFrame e s) }
  | none => s

/-- A bus opportunity of this station: the bus is idle, no attempt of its own is under way, and an entry is QUEUED (R147, R166). DESIGN CHOICE:
R147 names three moments, none of them after an own start bit that was not confirmed, where the line stays in IDLE with the entry back in
QUEUED (R166); the model lets BUS_OPPORTUNITY come at any moment in IDLE, so that such an entry may be sent again at once (log entry 36). -/
def opportune (s : State) : Bool :=
  !s.inReset && s.lc.state == .idle && (contendingEntry s).isNone && s.oq.entries.any (fun e => !e.contending)

/-- BUS_OPPORTUNITY: the entries are revalidated, and the best of those that remain is selected (R147, R148, R149). Its start bit is
driven; whether it is confirmed is the next event (R165, R166; log entry 28). -/
def execBusOpportunity (s : State) : Host.Outcome State Fault Refusal :=
  .next (if opportune s then selectEntry (revalidate s) else s)

/-! ### The end of an attempt without acceptance -/

/-- A request frame that has returned to QUEUED in DEPARTING is removed, and its record keeps its state (R123, R154); the
withdraw-asked mark is cleared as its frame leaves the queue (log entries 14 and 15). -/
def dropRequest (o : Owner) (s : State) : State :=
  match o with
  | .slot t =>
    match s.rt.slots[t] with
    | some r => setSlot t (some { r with withdrawAsked := false }) s
    | none => s
  | _ => s

/-- The attempt under way has ended without acceptance: its entry returns to QUEUED, with a void counted for an abandonable kind that
was voided, and is removed instead if it carries a discard mark, is a request frame in DEPARTING, or is abandoned at its sixteenth
void; its owner is told (R111, R119, R150, R151, R153, R154). -/
def returnAttempt (voided : Bool) (s : State) : State :=
  let s := s.withLc { s.lc with sending := none }
  match contendingEntry s with
  | none => s
  | some e =>
    let voids := if voided && abandonable e.content then e.voids + 1 else e.voids
    let abandoned := voided && abandonable e.content && decide (16 ≤ voids)
    if e.discard then removeContending s
    else if s.sc.state = .departing ∧ isRequest e.content = true then dropRequest (ownerOf e.content) (removeContending s)
    else if isRequest e.content then requestReturned abandoned voids e.content s
    else if abandoned then joinAbandoned e.content (removeContending s)
    else returnContending voids s

/-! ### Line faults -/

/-- The mute condition (R177). -/
def muteHolds (x : LineController) : Bool :=
  (x.rxFaults == 8 && decide (2 ≤ countOf x.faultSenders + (if x.faultUnknown then 1 else 0))) || x.txFaults == 8

/-- The station is to be muted: the condition holds in a voting state (R177). -/
def mutes (s : State) : Bool := voting s.sc.state && muteHolds s.lc

/-- The mute reported to the Station Controller (R94, R177). -/
def reportMute (now : Bool) (s : State) : State := if now then drop .mute s else s

/-- The duplicate station reported to the Station Controller (R94, R175). -/
def reportDuplicate (now : Bool) (s : State) : State := if now then drop .duplicate s else s

/-- A receive fault counted in the voting states (R176). -/
def countFault (t : Option Station) (s : State) : State :=
  if voting s.sc.state then
    let lc := { s.lc with rxFaults := min 8 (s.lc.rxFaults + 1) }
    match t with
    | some m => s.withLc { lc with faultSenders := addStation s.lc.faultSenders m }
    | none => s.withLc { lc with faultUnknown := true }
  else s

/-- A frame received clean, whatever its verdict, in the voting states (R176). -/
def countClean (s : State) : State :=
  if voting s.sc.state then
    s.withLc { s.lc with rxFaults := 0, faultSenders := noStations, faultUnknown := false }
  else s

/-- The transmit fault count at the end of an own attempt that was sent (R177); it is kept in the voting states. -/
def countTransmit (mismatch : Bool) (s : State) : State :=
  if voting s.sc.state then
    s.withLc { s.lc with txFaults := if mismatch then min 8 (s.lc.txFaults + 1) else 0 }
  else s

/-- This attempt's collision mismatch is the fourth in a row (R175). -/
def collidesFourth (collided : Bool) (s : State) : Bool := collided && decide (4 ≤ s.lc.collisions + 1)

/-- The collision count at the end of an own attempt that passed the arbitration cell; it returns to 0 as it reaches 4 (R175). -/
def countCollision (collided : Bool) (s : State) : State :=
  s.withLc { s.lc with
    collisions := if collided then (if 4 ≤ s.lc.collisions + 1 then 0 else s.lc.collisions + 1) else 0 }

/-! ### Frames on the line -/

/-- The cells that a receiver has read of a frame in the receive cell buffer, and the CRC of the data bits it read in the register (R165,
R170; log entry 19). -/
def keepRead (l : List Cell) (s : State) : State :=
  s.withLc { s.lc with cells := l, crc := crcOf (coveredBytes l) }

/-- The cells that a sender has read of its own frame in the receive cell buffer, and the CRC of the data bits it sent in the register
(R170; log entry 19). -/
def keepSent (f : Frame) (l : List Cell) (s : State) : State :=
  s.withLc { s.lc with cells := l, crc := crcOf (frameBytes f) }

/-- The line state changes. -/
def setLine (x : LineState) (s : State) : State := s.withLc { s.lc with state := x }

/-- The cells of the frame this station is sending. -/
def sentCells (s : State) : List Cell :=
  match s.lc.sending with
  | some f => frameCells f
  | none => []

/-- This station drives the verdict bit of the frame it has read dominant: a sender that found a mismatch, or a voting receiver at which
the frame failed; a receiver that lost the frame, or does not vote, drives nothing (R171, R174). -/
def drivesVerdict (rd : Reading) (s : State) : Bool :=
  match s.lc.state with
  | .sending => collisionIn (sentCells s) rd || mistransmitIn (sentCells s) rd
  | .receiving =>
    match receive rd with
    | .failed _ => voting s.sc.state
    | _ => false
  | _ => false

/-- The bits this station drives on TXD in the frame it is sending, true for high, given what it reads back; with no frame of its own TXD
is high but for the verdict bit of drivesVerdict (R158, R162, R171, R174). -/
def txdBits (rd : Reading) (s : State) : List Bool :=
  match s.lc.sending with
  | some f => lineBits f (!drivesVerdict rd s)
  | none => []

/-- START_BIT_CONFIRMED in IDLE: SENDING with an entry sent or joined, RECEIVING without; the cell buffer is emptied, the CRC register
preset, and the founding timer restarted in LISTEN (R77, R163, R165). -/
def startFrame (s : State) : State :=
  let t := s.withLc { s.lc with
    state := if (contendingEntry s).isSome then .sending else .receiving, cells := [], crc := 0xFFFF, recessive := 0 }
  if s.sc.state = .listen then t.withSc { t.sc with foundingTimer := 0 } else t

/-- START_BIT_CONFIRMED (R165). -/
def execStartBitConfirmed (s : State) : Host.Outcome State Fault Refusal :=
  .next (if s.inReset = false ∧ s.lc.state = .idle then startFrame s else s)

/-- UNCONFIRMED_START_BIT: the attempt ends as a void with a transmit mismatch, and the LC stays in IDLE (R151, R166, R177). At a station
that drove no start bit nothing changes (R165). -/
def execUnconfirmedStartBit (s : State) : Host.Outcome State Fault Refusal :=
  .next
    (if s.inReset = false ∧ s.lc.state = .idle ∧ (contendingEntry s).isSome = true then
      let t := countTransmit true s
      reportMute (mutes t) (returnAttempt true t)
     else s)

/-- ARBITRATION_LOST: the LC goes on as a receiver, and the entry returns to QUEUED at once (R150, R167). -/
def execArbitrationLost (s : State) : Host.Outcome State Fault Refusal :=
  .next (if s.inReset = false ∧ s.lc.state = .sending then returnAttempt false (setLine .receiving s) else s)

/-- FRAME_LOST: a receiver whose length cell fails enters SEEKING, hands nothing on, and counts a receive fault if it is voting; the mute
is decided at the loss (R169, R176, R177). The operand is the cells read up to the length cell. -/
def execFrameLost (cells : List Cell) (s : State) : Host.Outcome State Fault Refusal :=
  .next
    (if s.inReset = false ∧ s.lc.state = .receiving then
      match receive { cells := cells, gap := true } with
      | .lost t =>
        let u := countFault t (keepRead cells (s.withLc { s.lc with state := .seeking, recessive := 0 }))
        reportMute (mutes u) u
      | _ => s
     else s)

/-- END_FAULT: a dominant end bit sends the station to SEEKING; no counter changes (R163, R173). -/
def execEndFault (s : State) : Host.Outcome State Fault Refusal :=
  .next
    (if s.inReset = false ∧ s.lc.state = .closing then s.withLc { s.lc with state := .seeking, recessive := 0 } else s)

/-- BUS_IDLE: IDLE after 10 consecutive recessive bits in SEEKING, or at the ninth recessive end bit in CLOSING (R163, R164). -/
def execBusIdle (s : State) : Host.Outcome State Fault Refusal :=
  .next
    (if s.inReset then s
     else
      match s.lc.state with
      | .seeking => s.withLc { s.lc with state := .idle, recessive := 10 }
      | .closing => s.withLc { s.lc with state := .idle, recessive := 9 }
      | _ => s)

/-- The end of an own attempt at a dominant verdict bit: the counts, the void, then the mute and duplicate reports (R151, R172, R174,
R175, R177; log entry 11). -/
def voidOwn (f : Frame) (rd : Reading) (s : State) : State :=
  let collided := collisionIn (frameCells f) rd
  let t := countTransmit (mistransmitIn (frameCells f) rd) (countCollision collided (setLine .closing (keepSent f rd.cells s)))
  reportDuplicate (collidesFourth collided s) (reportMute (mutes t) (returnAttempt true t))

/-- A frame at this receiver whose verdict bit was dominant, or that failed here: CLOSING, and the receive fault count (R163, R172,
R176, R177). -/
def endReceived (x : Received) (rd : Reading) (s : State) : State :=
  match x with
  | .lost _ => s
  | .failed t =>
    let u := countFault t (setLine .closing (keepRead rd.cells s))
    reportMute (mutes u) u
  | .clean _ => countClean (setLine .closing (keepRead rd.cells s))

/-- FRAME_VOIDED: the verdict bit was dominant (R172). The operand is what this station read from the arbitration cell to the gap
bit. -/
def execFrameVoided (rd : Reading) (s : State) : Host.Outcome State Fault Refusal :=
  .next
    (if s.inReset then s
     else
      match s.lc.state with
      | .sending =>
        match s.lc.sending with
        | some f => voidOwn f rd s
        | none => s
      | .receiving => endReceived (receive rd) rd s
      | _ => s)

end Sys2Proof.Machine
end

