-- ==== Sys2Proof/Machine/Frames.lean ====
section
/-! DEFINITION. The meanings of the ten accepted frames: the verdict bit was recessive (R172). Each is one accepted frame of its kind, as
this station's own or as a receiver's. -/

namespace Sys2Proof.Machine

/-- The end of an own attempt at a recessive verdict bit: no mismatch was found, or this station would have driven the bit dominant
(R171, R174), so the counts return to 0 (R175, R177); the frame handed on is the frame it sent (R172). -/
def acceptOwn (f : Frame) (rd : Reading) (s : State) : State :=
  acceptFrame true f (countTransmit false (countCollision false (setLine .closing (keepSent f rd.cells s))))

/-- An accepted frame of a kind, as this station read it. A sender hands on the frame it sent; a receiver hands on a frame that was clean
here, and only follows one that failed here (R172). A reading that contradicts the command does not arise (log entries 4 and 9). -/
def acceptedFrame (k : Kind) (rd : Reading) (s : State) : State :=
  if s.inReset then s
  else
    match s.lc.state with
    | .sending =>
      match s.lc.sending with
      | some f =>
        if f.kind = k ∧ collisionIn (frameCells f) rd = false ∧ mistransmitIn (frameCells f) rd = false then acceptOwn f rd s
        else s
      | none => s
    | .receiving =>
      match receive rd with
      | .clean f =>
        if f.kind = k then acceptFrame false f (endReceived (.clean f) rd s) else s
      | x => endReceived x rd s
    | _ => s

/-- CLAIM_FRAME (R11, R34). -/
def execClaimFrame (rd : Reading) (s : State) : Host.Outcome State Fault Refusal := .next (acceptedFrame .claim rd s)

/-- YIELD_FRAME (R16, R34). -/
def execYieldFrame (rd : Reading) (s : State) : Host.Outcome State Fault Refusal := .next (acceptedFrame .yield rd s)

/-- WITHDRAW_FRAME (R18, R34). -/
def execWithdrawFrame (rd : Reading) (s : State) : Host.Outcome State Fault Refusal := .next (acceptedFrame .withdraw rd s)

/-- EVICT_FRAME (R22, R43). -/
def execEvictFrame (rd : Reading) (s : State) : Host.Outcome State Fault Refusal := .next (acceptedFrame .evict rd s)

/-- DEPART_FRAME (R43, R93). -/
def execDepartFrame (rd : Reading) (s : State) : Host.Outcome State Fault Refusal := .next (acceptedFrame .depart rd s)

/-- BEACON_FRAME (R41). -/
def execBeaconFrame (rd : Reading) (s : State) : Host.Outcome State Fault Refusal := .next (acceptedFrame .beacon rd s)

/-- SYNC_ASK_FRAME (R45, R81). -/
def execSyncAskFrame (rd : Reading) (s : State) : Host.Outcome State Fault Refusal := .next (acceptedFrame .syncAsk rd s)

/-- PAGE_FRAME (R47, R82, R86). -/
def execPageFrame (rd : Reading) (s : State) : Host.Outcome State Fault Refusal := .next (acceptedFrame .page rd s)

/-- ENROL_FRAME (R42, R90). -/
def execEnrolFrame (rd : Reading) (s : State) : Host.Outcome State Fault Refusal := .next (acceptedFrame .enrol rd s)

/-- FOUND_FRAME (R44, R79, R80). -/
def execFoundFrame (rd : Reading) (s : State) : Host.Outcome State Fault Refusal := .next (acceptedFrame .found rd s)

end Sys2Proof.Machine
end

