-- ==== Sys2Proof/Machine/HostLocks.lean ====
section
/-! DEFINITION. The meanings of the lock commands CLAIM, YIELD, WITHDRAW and RENEW (sections 5.2, 5.3 and 9.3). -/

namespace Sys2Proof.Machine

/-- The checks that YIELD, WITHDRAW and RENEW share: RANGE, STATE and PIN_BOUND, in this order; then the command's own rule on the
lock (R109, R110, R112, R140, R190). -/
def onLock (lock : Byte) (act : Lock → State → Answer) (s : State) : Answer :=
  match lockArg lock with
  | none => answer .range s
  | some l =>
    if s.sc.state ≠ .member then answer .state s
    else if pinBound s l then answer .pinBound s
    else act l s

/-- The Request Tracker on CLAIM after the checks of R140 (R106). -/
def claimLock (m : Mode) (limit : Byte) (l : Lock) (s : State) : Answer :=
  if (recordFor s l).isSome then answer .held s
  else if !aboveOccupied s l then answer .order s
  else if anyPending s then answer .pending s
  else answer .ok (placeClaim .host l m limit s)

/-- The Request Tracker on CLAIM: a mode that is neither WAIT nor TRY is out of range (R106, R190). -/
def answerClaim (lock mode limit : Byte) (s : State) : Answer :=
  match modeArg mode with
  | none => answer .range s
  | some m => onLock lock (claimLock m limit) s

/-- CLAIM (R106). -/
def execClaimCommand (lock mode limit : Byte) (s : State) : Host.Outcome State Fault Refusal :=
  .next (takeCommand .claim [lock, mode, limit] (answerClaim lock mode limit) s)

/-- The Request Tracker on YIELD (R109). -/
def yieldLock (l : Lock) (s : State) : Answer :=
  match recordFor s l with
  | some r => if r.state = .held then answer .ok (yieldRecord .released r s) else answer .notHeld s
  | none => answer .notHeld s

/-- YIELD (R109). -/
def execYieldCommand (lock : Byte) (s : State) : Host.Outcome State Fault Refusal :=
  .next (takeCommand .yield [lock] (onLock lock yieldLock) s)

/-- The Request Tracker on WITHDRAW (R110). -/
def withdrawLock (l : Lock) (s : State) : Answer :=
  match recordFor s l with
  | some r => if isPending r then answer .ok (withdrawRecord r s) else answer .notWaiting s
  | none => answer .notWaiting s

/-- WITHDRAW (R110). -/
def execWithdrawCommand (lock : Byte) (s : State) : Host.Outcome State Fault Refusal :=
  .next (takeCommand .withdraw [lock] (onLock lock withdrawLock) s)

/-- The Request Tracker on RENEW: a running hold timer restarts at 0 (R112, R120). -/
def renewLock (l : Lock) (s : State) : Answer :=
  match recordFor s l with
  | some r =>
    if r.state = .held then
      answer .ok (setSlot (tierOf l) (some { r with holdTimer := if r.holdLimit = 0 then r.holdTimer else some 0 }) s)
    else answer .notHeld s
  | none => answer .notHeld s

/-- RENEW (R112). -/
def execRenewCommand (lock : Byte) (s : State) : Host.Outcome State Fault Refusal :=
  .next (takeCommand .renew [lock] (onLock lock renewLock) s)

end Sys2Proof.Machine
end

