-- ==== Sys2Proof/Machine/HostReads.lean ====
section
/-! DEFINITION. The meanings of the read commands (section 9.4): results gathered at the take, between applications. -/

namespace Sys2Proof.Machine

/-- The answer of READ_LOCK (R25, R191). -/
def answerReadLock (lock : Byte) (s : State) : Answer :=
  match lockArg lock with
  | none => answer .range s
  | some l => (s, .ok, readLockBytes s l)

/-- READ_LOCK (R191). -/
def execReadLockCommand (lock : Byte) (s : State) : Host.Outcome State Fault Refusal :=
  .next (takeCommand .readLock [lock] (answerReadLock lock) s)

/-- READ_ROSTER (R192). -/
def execReadRosterCommand (s : State) : Host.Outcome State Fault Refusal :=
  .next (takeCommand .readRoster [] (fun t => (t, .ok, readRosterBytes t)) s)

/-- READ_HOLDS (R127, R193). -/
def execReadHoldsCommand (s : State) : Host.Outcome State Fault Refusal :=
  .next (takeCommand .readHolds [] (fun t => (t, .ok, readHoldsBytes t)) s)

/-- The answer of READ_NOTICE: the oldest notice and the number behind it, or EMPTY (R195). The notice is removed at completion. -/
def answerReadNotice (s : State) : Answer :=
  match s.hp.notices with
  | [] => answer .empty s
  | x :: rest => (s, .ok, noticeBytes x ++ [countByte rest.length])

/-- READ_NOTICE (R195). -/
def execReadNoticeCommand (s : State) : Host.Outcome State Fault Refusal :=
  .next (takeCommand .readNotice [] answerReadNotice s)

/-- The answer of READ_STATUS; its take clears the late-overflow mark (R194). -/
def answerReadStatus (s : State) : Answer :=
  (s.withHp { s.hp with lateOverflow := false }, .ok, readStatusBytes s)

/-- READ_STATUS (R194). -/
def execReadStatusCommand (s : State) : Host.Outcome State Fault Refusal :=
  .next (takeCommand .readStatus [] answerReadStatus s)

end Sys2Proof.Machine
end

