-- ==== Sys2Proof/Machine/HostSetup.lean ====
section
/-! DEFINITION. The meanings of the commands that set up and move the station: CONFIGURE, JOIN, LEAVE and RESET (section 9.2). -/

namespace Sys2Proof.Machine

/-- The Station Controller on CONFIGURE (R75, R187). -/
def answerConfigure (record : Vector Byte 20) (s : State) : Answer :=
  if s.sc.state = .unconfigured then
    match configArg record with
    | some c => answer .ok (s.withSc { s.sc with state := .ready, config := some c })
    | none => answer .range s
  else answer .locked s

/-- CONFIGURE (R75, R187). -/
def execConfigureCommand (record : Vector Byte 20) (s : State) : Host.Outcome State Fault Refusal :=
  .next (takeCommand .configure record.toList (answerConfigure record) s)

/-- The Station Controller on JOIN (R76, R188). -/
def answerJoin (s : State) : Answer :=
  if s.sc.state = .ready then
    answer .ok (s.withSc { s.sc with state := .listen, foundingTimer := 0, askCount := 0 })
  else answer .state s

/-- JOIN (R76, R188). -/
def execJoinCommand (s : State) : Host.Outcome State Fault Refusal := .next (takeCommand .join [] answerJoin s)

/-- The QUEUED request entries purged at LEAVE in MEMBER (R154). -/
def purgeRequests (s : State) : State := cancelQueued (fun e => isRequest e.content) s

/-- LEAVE taken in MEMBER: the lines inactive, the hold list left to its end, the request entries purged, DEPARTING, and a DEPART
queued (R92, R123, R132, R154). -/
def leaveBus (s : State) : State :=
  placeEntry .depart (enterState .departing (purgeRequests (leaveHolds (stopAllGuards s))))

/-- LEAVE taken in a joining state: the queue purged, the replica, the timers and the stale-membership mark cleared, READY (R92,
R154). -/
def abandonJoin (s : State) : State := enterState .ready (purgeAll s)

/-- The Station Controller on LEAVE (R92, R188). -/
def answerLeave (s : State) : Answer :=
  if s.sc.state = .member then answer .ok (leaveBus s)
  else if joining s.sc.state then answer .ok (abandonJoin s)
  else answer .state s

/-- LEAVE (R92, R188). -/
def execLeaveCommand (s : State) : Host.Outcome State Fault Refusal := .next (takeCommand .leave [] answerLeave s)

/-- RESET: the soft reset, in every station state (R189). -/
def execResetCommand (s : State) : Host.Outcome State Fault Refusal :=
  .next (takeCommand .reset [] (fun t => answer .ok (softReset t)) s)

end Sys2Proof.Machine
end

