-- ==== Sys2Proof/Machine/Pins.lean ====
section
/-! DEFINITION. The meanings of the changes of a request input's level (section 6.4). -/

namespace Sys2Proof.Machine

/-- A request input at a new raw level: the debounce timer runs while the raw level differs from the stable level, and stops at 0 when it
returns; during a hard reset no timer runs (R135). -/
def rawInput (inReset level : Bool) (i : RequestInput) : RequestInput :=
  { i with raw := level, debounce := if inReset ∨ level = i.stable then none else some 0 }

/-- RAW_LEVEL_CHANGE (R135). A level equal to the raw level is no change. -/
def execRawLevelChange (pin : Pin) (level : Bool) (s : State) : Host.Outcome State Fault Refusal :=
  .next
    (if s.ri.inputs[pin].raw = level then s
     else s.withRi { inputs := putAt s.ri.inputs pin (rawInput s.inReset level s.ri.inputs[pin]) })

/-- A request input whose debounce timer has reached 2 ms: the stable level takes the raw level, and a deassertion clears the ignore
mark (R135, R136). -/
def settledInput (i : RequestInput) : RequestInput :=
  { i with stable := i.raw, debounce := none, ignored := i.ignored && i.raw }

/-- STABLE_LEVEL_CHANGE: the debounce timer has reached 2 ms, and the change is handed to the Request Tracker, which acts in MEMBER on a
bound pin (R107, R108, R135, R137). -/
def execStableLevelChange (pin : Pin) (s : State) : Host.Outcome State Fault Refusal :=
  .next
    (if s.ri.inputs[pin].debounce.isSome then
      evaluatePin pin (s.withRi { inputs := putAt s.ri.inputs pin (settledInput s.ri.inputs[pin]) })
     else s)

end Sys2Proof.Machine
end

