-- ==== Sys2Proof/Machine/PortEvents.lean ====
section
/-! DEFINITION. The meanings of the host port's own events: the begin, end and truncation of a transaction, an unknown command, and
the completions of READ_NOTICE and READ_STATUS (sections 9.1 and 9.4). -/

namespace Sys2Proof.Machine

/-- TRANSACTION_BEGIN: SSn falls, and the port goes to COMMAND with its bit count at 0 (R181). During a hard reset the port does not
respond (R209), and SSn already low cannot fall (R180). -/
def execTransactionBegin (s : State) : Host.Outcome State Fault Refusal :=
  .next
    (if s.hp.selected then s
     else if s.inReset then s.withHp { s.hp with selected := true }
     else s.withHp { s.hp with selected := true, phase := .command, bits := 0, taken := none, resultCode := none,
                               resultData := [] })

/-- TRANSACTION_END: SSn rises in TURNAROUND, RESULT or FILLER, in COMMAND with no SCK edge, or in IDLE after a hard reset taken with
SSn low; the port is in IDLE, and a command already taken stands (R180, R181, R183). -/
def execTransactionEnd (s : State) : Host.Outcome State Fault Refusal :=
  .next
    (if s.hp.phase = .arguments then s else s.withHp { s.hp with selected := false, phase := .idle })

/-- TRANSACTION_TRUNCATED: SSn rises in COMMAND or ARGUMENTS after an SCK edge; the partial command is discarded and TRUNCATED is set
(R183). -/
def execTransactionTruncated (s : State) : Host.Outcome State Fault Refusal :=
  .next
    (if s.hp.phase = .command ∨ s.hp.phase = .arguments then
      s.withHp { s.hp with selected := false, phase := .idle, truncated := true }
     else s)

/-- UNKNOWN_COMMAND: a command byte that is no command code is answered UNKNOWN and changes nothing else (R184). A known code is not
this event (log entry 4). -/
def execUnknownCommand (code : Byte) (s : State) : Host.Outcome State Fault Refusal :=
  .next (if commandOfCode code = none then takeTransaction [code] (answer .unknown) s else s)

/-- A result of a command is being shifted out or about to be, and can be completed (R181, R185). -/
def completing (c : HostCommand) (s : State) : Bool :=
  (s.hp.phase == .turnaround || s.hp.phase == .result) && s.hp.taken == some c

/-- The port after the last bit of the result (R181). The SCK cycles up to it that no millisecond has carried are part of the completion
(log entry 24). -/
def completed (p : HostPort) : HostPort := { p with phase := .filler, bits := resultEnd p }

/-- READ_NOTICE_COMPLETION: the last bit of the result has been shifted out; the notice read is removed (R185, R195). A result EMPTY
removes nothing. -/
def execReadNoticeCompletion (s : State) : Host.Outcome State Fault Refusal :=
  .next
    (if completing .readNotice s then
      s.withHp { completed s.hp with
        notices := if s.hp.resultCode = some .ok then s.hp.notices.tail else s.hp.notices }
     else s)

/-- The flags byte of the READ_STATUS result held by the port (R207). -/
def reportedFlags (s : State) : Byte := byteAt s.hp.resultData 2

/-- READ_STATUS_COMPLETION: TRUNCATED, if reported set, is cleared; OVERFLOW, if reported set, is cleared unless the late-overflow mark
is set (R194). -/
def execReadStatusCompletion (s : State) : Host.Outcome State Fault Refusal :=
  .next
    (if completing .readStatus s then
      s.withHp { completed s.hp with
        truncated := s.hp.truncated && !(reportedFlags s).getLsbD 2,
        overflow := s.hp.overflow && !((reportedFlags s).getLsbD 1 && !s.hp.lateOverflow) }
     else s)

end Sys2Proof.Machine
end

