-- ==== Sys2Proof/Machine/Resets.lean ====
section
/-! DEFINITION. The meanings of HARD_RESET and HARD_RESET_END (R209). -/

namespace Sys2Proof.Machine

/-- The state that a hard reset clears, with the pins as they are: the raw levels of the request inputs and SSn (R209, R133, R135,
R136, R145, R158, R179, R200; log entry 7). The sampled straps are not read until the reset ends. -/
def clearedByReset (s : State) : State :=
  { s with inReset := true, lc := .reset, au := .cleared, pm := .idle, sc := .reset, tc := .cleared, rt := .empty,
           oq := { entries := [] }, gl := .stopped,
           ri := { inputs := tabulate fun p =>
             { raw := s.ri.inputs[p].raw, stable := false, debounce := none, ignored := false } },
           hp := { HostPort.reset with selected := s.hp.selected } }

/-- HARD_RESET: power-on or an assertion of RSTn forces every output to its reset level and clears every block (R209). -/
def execHardReset (s : State) : Host.Outcome State Fault Refusal := .next (clearedByReset s)

/-- The end of a hard reset: the straps are sampled, and the request inputs are filtered from now on (R135, R209). -/
def startedByReset (straps : Station) (rate : BitVec 2) (s : State) : State :=
  { s with inReset := false, station := straps, bitRate := rate,
           ri := { inputs := tabulate fun p =>
             { s.ri.inputs[p] with debounce := if s.ri.inputs[p].raw then some 0 else none } } }

/-- HARD_RESET_END: the release of RSTn and of the power-on hold, with the levels of the straps ST4 to ST0 and BR1:BR0. The line is
followed from SEEKING (R163, R179), and the station is UNCONFIGURED (R74). With no hard reset in progress it does not arise (log
entry 4). -/
def execHardResetEnd (straps : Station) (rate : BitVec 2) (s : State) : Host.Outcome State Fault Refusal :=
  .next (if s.inReset then startedByReset straps rate s else s)

end Sys2Proof.Machine
end

