-- ==== Sys2Proof/Machine/Dispatch.lean ====
section
/-! DEFINITION. The meaning of each command: one arm for each constructor of Instr. -/

namespace Sys2Proof.Machine

def exec (i : Instr) (s : State) : Host.Outcome State Fault Refusal :=
  match i with
  | .hardReset => Sys2Proof.Machine.execHardReset s
  | .hardResetEnd straps rate => Sys2Proof.Machine.execHardResetEnd straps rate s
  | .configureCommand record => Sys2Proof.Machine.execConfigureCommand record s
  | .joinCommand => Sys2Proof.Machine.execJoinCommand s
  | .leaveCommand => Sys2Proof.Machine.execLeaveCommand s
  | .resetCommand => Sys2Proof.Machine.execResetCommand s
  | .claimCommand lock mode limit => Sys2Proof.Machine.execClaimCommand lock mode limit s
  | .yieldCommand lock => Sys2Proof.Machine.execYieldCommand lock s
  | .withdrawCommand lock => Sys2Proof.Machine.execWithdrawCommand lock s
  | .renewCommand lock => Sys2Proof.Machine.execRenewCommand lock s
  | .readLockCommand lock => Sys2Proof.Machine.execReadLockCommand lock s
  | .readRosterCommand => Sys2Proof.Machine.execReadRosterCommand s
  | .readHoldsCommand => Sys2Proof.Machine.execReadHoldsCommand s
  | .readNoticeCommand => Sys2Proof.Machine.execReadNoticeCommand s
  | .readStatusCommand => Sys2Proof.Machine.execReadStatusCommand s
  | .unknownCommand code => Sys2Proof.Machine.execUnknownCommand code s
  | .transactionTruncated => Sys2Proof.Machine.execTransactionTruncated s
  | .readNoticeCompletion => Sys2Proof.Machine.execReadNoticeCompletion s
  | .readStatusCompletion => Sys2Proof.Machine.execReadStatusCompletion s
  | .busOpportunity => Sys2Proof.Machine.execBusOpportunity s
  | .startBitConfirmed => Sys2Proof.Machine.execStartBitConfirmed s
  | .unconfirmedStartBit => Sys2Proof.Machine.execUnconfirmedStartBit s
  | .arbitrationLost => Sys2Proof.Machine.execArbitrationLost s
  | .frameLost cells => Sys2Proof.Machine.execFrameLost cells s
  | .endFault => Sys2Proof.Machine.execEndFault s
  | .frameVoided read => Sys2Proof.Machine.execFrameVoided read s
  | .claimFrame read => Sys2Proof.Machine.execClaimFrame read s
  | .yieldFrame read => Sys2Proof.Machine.execYieldFrame read s
  | .withdrawFrame read => Sys2Proof.Machine.execWithdrawFrame read s
  | .evictFrame read => Sys2Proof.Machine.execEvictFrame read s
  | .departFrame read => Sys2Proof.Machine.execDepartFrame read s
  | .beaconFrame read => Sys2Proof.Machine.execBeaconFrame read s
  | .syncAskFrame read => Sys2Proof.Machine.execSyncAskFrame read s
  | .pageFrame read => Sys2Proof.Machine.execPageFrame read s
  | .enrolFrame read => Sys2Proof.Machine.execEnrolFrame read s
  | .foundFrame read => Sys2Proof.Machine.execFoundFrame read s
  | .ownContactReachesP => Sys2Proof.Machine.execOwnContactReachesP s
  | .beaconPromoted => Sys2Proof.Machine.execBeaconPromoted s
  | .fenceLimit => Sys2Proof.Machine.execFenceLimit s
  | .absenceLimit member => Sys2Proof.Machine.execAbsenceLimit member s
  | .stranding => Sys2Proof.Machine.execStranding s
  | .foundingWait => Sys2Proof.Machine.execFoundingWait s
  | .roundTimeout => Sys2Proof.Machine.execRoundTimeout s
  | .holdExpiry slot => Sys2Proof.Machine.execHoldExpiry slot s
  | .guardElapsed line => Sys2Proof.Machine.execGuardElapsed line s
  | .rawLevelChange pin level => Sys2Proof.Machine.execRawLevelChange pin level s
  | .stableLevelChange pin => Sys2Proof.Machine.execStableLevelChange pin s
  | .busIdle => Sys2Proof.Machine.execBusIdle s
  | .transactionBegin => Sys2Proof.Machine.execTransactionBegin s
  | .transactionEnd => Sys2Proof.Machine.execTransactionEnd s

end Sys2Proof.Machine
end

