-- ==== Sys2Proof/Machine/Step.lean ====
section
/-! DEFINITION. One step of the station: the command at the front of the queue, or, with none waiting, the station's own clock. -/

namespace Sys2Proof.Machine

/-- One step. The command at the front of the queue has its effect on everything but the queue, which keeps its rest. On an empty
queue a timer limit that is due is taken as its command is, and with none due a millisecond passes (log entries 1 and 2). -/
def step (s : State) : Host.Outcome State Fault Refusal :=
  match s.pending with
  | c :: rest => exec c { s with pending := rest }
  | [] =>
    match nextLimit s with
    | some c => exec c (countChoice s)
    | none => .next (passTime s)

/-- The state with the command that a word spells at the front of the queue (log entry 31). -/
def State.withFetchWord (s : State) (nbits w : Nat) : State :=
  match decodeTableWord nbits w with
  | some c => { s with pending := c :: s.pending }
  | none => s

end Sys2Proof.Machine
end

