-- ==== Sys2Proof/WellFormed.lean ====
section
/-! DEFINITION. The well-formed commands: those whose operands can stand beside their name. An ill-formed command is disregarded or
taken by what its operands say (log entries 4, 9 and 10). -/

namespace Sys2Proof

/-- A reading of an accepted frame of a kind: its length cell held, and if the frame was clean it is of that kind (R168, R172). -/
def readingFits (k : Machine.Kind) (rd : Reading) : Bool :=
  match Machine.receive rd with
  | .lost _ => false
  | .failed _ => true
  | .clean f => f.kind == k

/-- The cells read of a lost frame: the arbitration, kind and length cells, the last of which does not hold (R169). -/
def lostCells (l : List Cell) : Bool :=
  match l with
  | [_, _, length] => !Machine.lengthHolds length
  | _ => false

/-- The well-formed commands. An unknown command carries a byte that is no command code (R184). -/
def WellFormed : Instr → Bool
  | .hardReset => true
  | .hardResetEnd _ _ => true
  | .configureCommand _ => true
  | .joinCommand => true
  | .leaveCommand => true
  | .resetCommand => true
  | .claimCommand _ _ _ => true
  | .yieldCommand _ => true
  | .withdrawCommand _ => true
  | .renewCommand _ => true
  | .readLockCommand _ => true
  | .readRosterCommand => true
  | .readHoldsCommand => true
  | .readNoticeCommand => true
  | .readStatusCommand => true
  | .unknownCommand code => (Machine.commandOfCode code).isNone
  | .transactionTruncated => true
  | .readNoticeCompletion => true
  | .readStatusCompletion => true
  | .busOpportunity => true
  | .startBitConfirmed => true
  | .unconfirmedStartBit => true
  | .arbitrationLost => true
  | .frameLost cells => lostCells cells
  | .endFault => true
  | .frameVoided _ => true
  | .claimFrame rd => readingFits .claim rd
  | .yieldFrame rd => readingFits .yield rd
  | .withdrawFrame rd => readingFits .withdraw rd
  | .evictFrame rd => readingFits .evict rd
  | .departFrame rd => readingFits .depart rd
  | .beaconFrame rd => readingFits .beacon rd
  | .syncAskFrame rd => readingFits .syncAsk rd
  | .pageFrame rd => readingFits .page rd
  | .enrolFrame rd => readingFits .enrol rd
  | .foundFrame rd => readingFits .found rd
  | .ownContactReachesP => true
  | .beaconPromoted => true
  | .fenceLimit => true
  | .absenceLimit _ => true
  | .stranding => true
  | .foundingWait => true
  | .roundTimeout => true
  | .holdExpiry _ => true
  | .guardElapsed _ => true
  | .rawLevelChange _ _ => true
  | .stableLevelChange _ => true
  | .busIdle => true
  | .transactionBegin => true
  | .transactionEnd => true

end Sys2Proof
end

