-- ==== Sys2Proof/Safety.lean ====
section
/-! DEFINITION. What a safe state is: the laws of the manual that every step keeps, and the outputs they are about. A safe run is one
whose every state satisfies State.safe. -/

namespace Sys2Proof.Machine

/-- The laws of a lock entry against a roster (R2, R3, R4): the holder is a member and does not wait, the waiters are at most 8 distinct
members, and a lock with no holder has none. -/
def LockEntry.lawful (roster : StationSet) (e : LockEntry) : Bool :=
  (match e.holder with
    | some h => roster[h] && decide (h ∉ e.waiters)
    | none => e.waiters.isEmpty)
  && decide (e.waiters.length ≤ 8) && decide e.waiters.Nodup && e.waiters.all fun t => roster[t]

/-- The law of the claim table (R2, R3, R4), with an uncollected entry cleared (R6). -/
def State.tableLawful (s : State) : Bool :=
  (List.finRange 64).all fun l =>
    s.au.replica.table[l].lawful s.au.replica.roster && (!s.tc.uncollected[l] || s.au.replica.table[l] == .cleared)

/-- The law of the transfer record (R28): next page is at most 16, and the lists hold at most 4 stations each, each station at most once. -/
def State.transferLawful (s : State) : Bool :=
  decide (s.au.replica.transfer.nextPage ≤ 16) && decide (s.au.replica.transfer.roundList.length ≤ 4)
    && decide (s.au.replica.transfer.pendingList.length ≤ 4) && decide s.au.replica.transfer.roundList.Nodup
    && decide s.au.replica.transfer.pendingList.Nodup

/-- The law of the hold list (R102, R104): each record stands in its lock's tier, and a pending record's tier is higher than that of
every other occupied slot. -/
def State.holdsLawful (s : State) : Bool :=
  (List.finRange 8).all fun t =>
    match s.rt.slots[t] with
    | none => true
    | some r =>
      tierOf r.lock == t &&
        (!isPending r || (List.finRange 8).all fun u => s.rt.slots[u].isNone || decide (u ≤ t))

/-- The law of the station states: what is kept in some states only is cleared in the others (R30, R39, R52, R61, R66, R67, R73, R74,
R103). -/
def State.stateLawful (s : State) : Bool :=
  (voting s.sc.state || s.au == .cleared)
    && (present s.sc.state || (s.pm == .idle && s.rt == .empty))
    && (s.sc.state == .member ||
        (!s.pm.contact && !s.pm.quorum && !s.pm.attained && s.pm.stranding.isNone && s.gl == .stopped))
    && (s.sc.state == .listen || s.sc.foundingTimer == 0)
    && (s.sc.state == .waitRound || s.sc.state == .collecting || s.sc.roundTimer == 0)
    && (s.sc.state == .enrolling || !s.sc.staleMark)
    && (s.sc.config.isNone == (s.sc.state == .unconfigured))

/-- The law of the collection: in COLLECTING after n pages the collected entries are locks 0 to 4n - 1 and the next page is n + 1 (R84, R86);
outside COLLECTING no entry is marked uncollected (R87; where the replica is cleared, the model's choice: log entry 34). -/
def State.collectionLawful (s : State) : Bool :=
  if s.sc.state = .collecting then
    s.au.replica.transfer.running && s.au.replica.transfer.nextPage == s.tc.collected + 1 && decide (s.tc.collected ≤ 15)
      && (List.finRange 64).all fun l => s.tc.uncollected[l] == decide (4 * s.tc.collected ≤ l.val)
  else (List.finRange 64).all fun l => !s.tc.uncollected[l]

/-- The frame being sent is that of an entry: this station's number, the entry's kind and flags, the payload of a request entry, and in
the voting states the bus sequence the station holds, which no other frame can advance meanwhile (R33, R149). -/
def State.sendsEntry (s : State) (f : Frame) (e : Entry) : Bool :=
  f.sender == s.station && f.kind == kindOf e.content && f.flags == flagsOf e.content
    && (!isRequest e.content || f.payload == payloadOf e.content s)
    && (!voting s.sc.state || f.busSeq == s.au.replica.busSeq)

/-- The law of the attempt under way (R33, R149, R163): at most one entry is CONTENDING, its frame is filled in, and the line is IDLE, its
start bit not yet confirmed, or SENDING. -/
def State.attemptLawful (s : State) : Bool :=
  decide ((s.oq.entries.filter (·.contending)).length ≤ 1)
    && s.lc.sending.isSome == s.oq.entries.any (·.contending)
    && (!s.oq.entries.any (·.contending) || s.lc.state == .idle || s.lc.state == .sending)
    && (s.lc.state != .sending || s.oq.entries.any (·.contending))
    && (match s.lc.sending with
      | some f => !s.inReset && s.oq.entries.any fun e => e.contending && s.sendsEntry f e
      | none => true)

/-- An entry of a slot agrees with the slot's record: the CLAIM of a claim not yet answered, the WITHDRAW of a WITHDRAWING record or one
still CONTENDING behind a grant, or the YIELD of a YIELDING record with its generation (R102, R111, R119). -/
def HoldRecord.fits (r : HoldRecord) (e : Entry) : Bool :=
  match r.state, e.content with
  | .claiming, .claim l _ => l == r.lock
  | .claimCancel, .claim l _ => l == r.lock && e.contending
  | .withdrawing, .withdraw l => l == r.lock
  | .held, .withdraw l => l == r.lock && r.withdrawAsked && e.contending
  | .yielding, .withdraw l => l == r.lock && r.withdrawAsked && e.contending
  | .yielding, .yield l g _ => l == r.lock && !r.withdrawAsked && g == r.generation.getD 0
  | _, _ => false

/-- An entry is one that its owner has placed and not taken back: a slot's entry fits its record, a joining entry belongs to the station
state, and the other station entries belong to the states with presence duties. An entry with a discard mark is CONTENDING, outside the
voting states (R52, R77, R78, R87, R91, R92, R143, R155). -/
def State.entryLawful (s : State) (e : Entry) : Bool :=
  if e.discard then e.contending && !voting s.sc.state
  else
    match ownerOf e.content, e.content with
    | .slot t, _ => present s.sc.state && s.rt.slots[t].any fun r => r.fits e
    | .joining, .found => s.sc.state == .founding
    | .joining, .syncAsk => s.sc.state == .asking
    | .joining, .enrol => s.sc.state == .enrolling && !s.sc.staleMark
    | .joining, _ => s.sc.state == .departing || s.sc.state == .enrolling && s.sc.staleMark
    | _, _ => present s.sc.state

/-- The law of the outbound queue (R143): at most one entry for each owner, 12 in all, each one lawful; and a YIELD is deferred only for
a YIELDING record behind its WITHDRAW, in MEMBER (R119, R123). -/
def State.queueLawful (s : State) : Bool :=
  decide (s.oq.entries.map (ownerOf ·.content)).Nodup && decide (s.oq.entries.length ≤ 12) && s.oq.entries.all s.entryLawful
    && (List.finRange 8).all fun t => s.rt.slots[t].all fun r =>
      r.deferred.isNone || (r.state == .yielding && r.withdrawAsked && s.sc.state == .member)

/-- The law of the guards (R128, R129, R130): a guard that is not STOPPED belongs to a line whose lock is HELD at an unfenced MEMBER, and
the lines bound to one lock have one guard value, so that they are active together. -/
def State.guardsLawful (s : State) : Bool :=
  (List.finRange 8).all fun n =>
    (s.gl.guards[n] == .stopped ||
      (s.sc.state == .member && !fenced s && (match grantBinding s n with | some l => lockHeld s l | none => false)))
      && (List.finRange 8).all fun k => grantBinding s n != grantBinding s k || s.gl.guards[n] == s.gl.guards[k]

/-- The law R105 for one lock: the claim table names this station its holder exactly when the record is HELD or YIELDING, with the
generation of the entry, and a waiter exactly when it is WAITING or WITHDRAWING. -/
def State.lockAgrees (s : State) (l : Lock) : Bool :=
  let e := s.au.replica.table[l]
  match recordFor s l with
  | some r =>
    match r.state with
    | .held => e.holder == some s.station && decide (s.station ∉ e.waiters) && r.generation == some e.generation
    | .yielding => e.holder == some s.station && decide (s.station ∉ e.waiters) && r.generation == some e.generation
    | .waiting => e.holder != some s.station && decide (s.station ∈ e.waiters)
    | .withdrawing => e.holder != some s.station && decide (s.station ∈ e.waiters)
    | .claiming => e.holder != some s.station && decide (s.station ∉ e.waiters)
    | .claimCancel => e.holder != some s.station && decide (s.station ∉ e.waiters)
  | none => e.holder != some s.station && decide (s.station ∉ e.waiters)

/-- The law R105: in MEMBER and DEPARTING the station is in its roster, and the hold list agrees with the claim table at every lock. -/
def State.holdsAgree (s : State) : Bool :=
  !present s.sc.state || (s.au.replica.roster[s.station] && (List.finRange 64).all s.lockAgrees)

/-- The ranges of the counts and of the notice queue (R39, R74, R175, R176, R177, R198); a collision count that reaches 4 returns to 0 in
the same step. -/
def State.countsLawful (s : State) : Bool :=
  decide (s.au.streakCount ≤ 3) && decide (s.sc.askCount ≤ 4) && decide (s.lc.rxFaults ≤ 8) && decide (s.lc.txFaults ≤ 8)
    && decide (s.lc.collisions ≤ 3) && decide (s.hp.notices.length ≤ 16)

/-- A safe state: every law holds. -/
def State.safe (s : State) : Bool :=
  s.tableLawful && s.transferLawful && s.holdsLawful && s.stateLawful && s.collectionLawful && s.attemptLawful
    && s.guardsLawful && s.countsLawful && s.queueLawful && s.holdsAgree

/-- Every output at its reset level: the grant lines and ATTN low, SDO at high impedance (R209). TXD is high whenever no frame of this
station is on the line (R158). -/
def State.quiet (s : State) : Prop :=
  (∀ n, grantActive s n = false) ∧ attention s = false ∧ sdoDriven s = false ∧ s.lc.sending = none

/-! ### Terms of the claims -/

/-- The port after the take of a command, with its answer held (R181, R182). -/
def HostPort.answered (p : HostPort) (c : HostCommand) (bytes : Nat) (code : ResultCode) (data : List Byte) : HostPort :=
  { p with phase := .turnaround, bits := 8 * bytes, taken := some c, resultCode := some code, resultData := data }

/-- This station receives a frame from its arbitration cell to its gap bit, clean (R168). -/
def State.hears (s : State) (rd : Reading) (f : Frame) : Prop :=
  s.inReset = false ∧ s.lc.state = .receiving ∧ receive rd = .clean f

/-- This station has sent a frame and read every bit of it back as sent (R174). -/
def State.sends (s : State) (rd : Reading) (f : Frame) : Prop :=
  s.inReset = false ∧ s.lc.state = .sending ∧ s.lc.sending = some f ∧ rd = readingOf f

/-- A frame of a member at this station's bus sequence (R34). -/
def State.inStep (s : State) (f : Frame) : Prop :=
  f.busSeq = s.au.replica.busSeq ∧ s.au.replica.roster[f.sender] = true

/-- No entry is marked uncollected (R84, R87). -/
def State.collectedAll (s : State) : Prop := ∀ l : Lock, s.tc.uncollected[l] = false

/-- The Host Port after notices have been placed in order: those that find fewer than 16 in the queue are appended, and the others are
lost, with OVERFLOW and the late-overflow mark set (R198). -/
def HostPort.noticed (p : HostPort) (l : List Notice) : HostPort :=
  { p with notices := p.notices ++ l.take (16 - p.notices.length),
           overflow := p.overflow || decide (16 - p.notices.length < l.length),
           lateOverflow := p.lateOverflow || decide (16 - p.notices.length < l.length) }

/-- In the step to t notices are placed, x the last of them, and nothing else changes at the Host Port (R198). -/
def State.lastNotice (s t : State) (x : Notice) : Prop := ∃ l, t.hp = s.hp.noticed (l ++ [x])

/-- A station notice placed with a cleared replica (R196, R197). -/
def stationNoticeOf (k : NoticeKind) : Notice :=
  { kind := k, lock := none, station := none, generation := none, qualifier := .none, busSeq := 0 }

/-- The notice WITHDRAWN of a lock (R126, R197). -/
def withdrawnNotice (l : Lock) (s : State) : Notice :=
  { kind := .withdrawn, lock := some l, station := none, generation := none, qualifier := .none,
    busSeq := s.au.replica.busSeq }

/-- The FENCED or UNFENCED notice of a cause with a bus sequence (R62, R196, R197). -/
def fenceNoticeOf (k : NoticeKind) (c : FenceCause) (q : BusSeq) : Notice :=
  { stationNoticeOf k with qualifier := .fence c, busSeq := q }

/-- The notices of one change of the fence set, of whether CONTACT and whether QUORUM is present, from a to b (R62). -/
def fenceReport (a b : Bool × Bool) (q : BusSeq) : List Notice :=
  (if b.1 && !a.1 then [fenceNoticeOf .fenced .contact q] else [])
    ++ (if b.2 && !a.2 then [fenceNoticeOf .fenced .quorum q] else [])
    ++ (if b.1 || b.2 then []
        else if a.2 then [fenceNoticeOf .unfenced .quorum q]
        else if a.1 then [fenceNoticeOf .unfenced .contact q] else [])

/-- The notice that CONTACT, taken off the fence set by an own applied frame, gives: UNFENCED if it was the only cause (R53, R61, R62). -/
def State.contactLeft (s : State) : List Notice :=
  fenceReport (fenceSet s) (false, s.pm.quorum) (s.au.replica.busSeq + 1)

/-- The PEER_LEFT notice of a member that a frame removes (R70, R196, R197). -/
def peerLeftNotice (t : Station) (why : LeftCause) (s : State) : Notice :=
  { kind := .peerLeft, lock := none, station := some t, generation := none, qualifier := .left why,
    busSeq := s.au.replica.busSeq + 1 }

/-- A guard as it starts: RUNNING from 0, or ELAPSED at once with a guard time of 0 (R130). -/
def State.freshGuard (s : State) : Guard := if guardTimeOf s = 0 then .elapsed else .running 0

/-- The guards after one change of the fence set: stopped when the station becomes fenced; when it becomes unfenced, those of the lines
whose lock is HELD start; otherwise as they were (R64, R130). -/
def State.guardsMoved (s t : State) : Prop :=
  (fenced t = fenced s → t.gl = s.gl) ∧ (fenced t = true → fenced s = false → t.gl = .stopped) ∧
  (fenced t = false → fenced s = true → ∀ n : GrantLine,
    ((∃ l, grantBinding s n = some l ∧ lockHeld t l = true) → t.gl.guards[n] = s.freshGuard) ∧
    ((∀ l, grantBinding s n = some l → lockHeld t l = false) → t.gl.guards[n] = s.gl.guards[n]))

/-- The guards after the records of some locks have entered HELD in an application: at an unfenced MEMBER those of their lines start, one
change of the fence set acts on them all, and outside MEMBER none starts (R64, R113, R130). -/
def State.guardsStarted (s t : State) (entered : Lock → Prop) : Prop :=
  (s.sc.state = .member → fenced s = false → fenced t = false → ∀ n : GrantLine,
    ((∃ l, grantBinding s n = some l ∧ entered l) → t.gl.guards[n] = s.freshGuard) ∧
    ((∀ l, grantBinding s n = some l → ¬ entered l) → t.gl.guards[n] = s.gl.guards[n])) ∧
  (s.sc.state = .member → fenced s = true ∨ fenced t = true → s.guardsMoved t) ∧
  (s.sc.state ≠ .member → t.gl = s.gl)

/-- The quorum state of a MEMBER after its roster has changed: QUORUM is present below Q, the quorum-attained flag is set once the count has
reached Q, and the stranding timer runs below Q with the flag set, from 0 if it did not run (R61, R66, R67). -/
def State.quorumFollows (s t : State) : Prop :=
  t.pm.quorum = decide (countOf t.au.replica.roster < quorumOf s) ∧ t.pm.attained = (s.pm.attained || !t.pm.quorum) ∧
  t.pm.stranding = if t.pm.quorum = true ∧ t.pm.attained = true then some (s.pm.stranding.getD 0) else none

/-- The REVOKED notice of a record: a held one with its generation, a waiting one without, and none for a claim not yet answered (R124,
R125, R126). -/
def revokedNotice (q : BusSeq) (r : HoldRecord) : List Notice :=
  let x (g : Option Generation) : List Notice :=
    [{ kind := .revoked, lock := some r.lock, station := none, generation := g, qualifier := .none, busSeq := q }]
  match r.state with
  | .held => x r.generation
  | .yielding => x r.generation
  | .waiting => x none
  | .withdrawing => x none
  | .claiming => []
  | .claimCancel => []

/-- The REVOKED notices of a hold list, in ascending slot order (R124, R125). -/
def revokedNotices (q : BusSeq) (x : RequestTracker) : List Notice :=
  (List.finRange 8).flatMap fun t => ((x.slots[t]).map (revokedNotice q)).getD []

/-- A request input is asserted and bound (R136, R139). -/
def State.pinAsks (s : State) (p : Pin) : Bool := s.ri.inputs[p].stable && (requestBinding s p).isSome

/-- A request input before p is asserted and bound. -/
def State.pinBefore (s : State) (p : Pin) : Bool := (List.finRange 4).any fun k => decide (k < p) && s.pinAsks k

/-- The record of a request input's new claim (R106, R107). -/
def State.pinRecord (s : State) (p : Pin) (l : Lock) : HoldRecord :=
  { lock := l, origin := .req p, state := .claiming, holdLimit := requestLimit s p, generation := none,
    withdrawAsked := false, holdTimer := none, deferred := none }

/-- The examination of the request inputs on entry to MEMBER, with an empty hold list and no lock bound twice: the first asserted and bound
pin claims its lock in WAIT mode, the later ones are refused by the pending rule and ignored, and every other ignore mark is clear (R104,
R107, R136, R139). -/
def State.pinsExamined (s t : State) : Prop :=
  ((∀ p, s.pinAsks p = false) → t.rt = .empty) ∧
  (∀ p l, s.pinAsks p = true → s.pinBefore p = false → requestBinding s p = some l →
    t.rt.slots = putAt RequestTracker.empty.slots (tierOf l) (some (s.pinRecord p l)) ∧
    newEntry (.claim l .wait) ∈ t.oq.entries) ∧
  (∀ p : Pin, t.ri.inputs[p] = { s.ri.inputs[p] with ignored := s.pinAsks p && s.pinBefore p })

/-- The PIN_REFUSED notices of that examination, in pin order (R107, R139). -/
def State.pinRefusals (s : State) (q : BusSeq) : List Notice :=
  ((List.finRange 4).filter fun p => s.pinAsks p && s.pinBefore p).map fun p =>
    { kind := .pinRefused, lock := requestBinding s p, station := none, generation := none, qualifier := .none, busSeq := q }

/-- A record of pin origin has its pin bound to its lock (R106, R107). -/
def State.bound (s : State) (r : HoldRecord) : Prop :=
  r.origin = .host ∨ ∃ p, r.origin = .req p ∧ requestBinding s p = some r.lock

/-- Every record of pin origin has its pin bound to its lock. -/
def State.recordsBound (s : State) : Prop := ∀ (i : Tier) r, s.rt.slots[i] = some r → s.bound r

/-- A record of pin origin at a MEMBER has its pin deasserted: it is yielded or withdrawn at its next change (R108). -/
def State.pinFell (s : State) (r : HoldRecord) : Bool :=
  s.sc.state == .member && match r.origin with
    | .host => false
    | .req p => !s.ri.inputs[p].stable

/-- A grant overtakes a WITHDRAW that is CONTENDING, and the withdraw-asked mark stays (R113). -/
def State.markStays (s : State) (r : HoldRecord) : Bool :=
  r.state == .withdrawing && r.withdrawAsked && slotContends .withdraw (tierOf r.lock) s

/-- A record after a grant with a generation: HELD, with its hold timer started in MEMBER; or, its pin deasserted, YIELDING at once, with the
YIELD deferred behind a WITHDRAW that is CONTENDING (R108, R113, R119, R120). -/
def State.grantTaken (s : State) (r : HoldRecord) (g : Generation) : HoldRecord :=
  if s.pinFell r then
    { r with state := .yielding, generation := some g, withdrawAsked := s.markStays r, holdTimer := none,
             deferred := if s.markStays r then some .released else r.deferred }
  else
    { r with state := .held, generation := some g, withdrawAsked := s.markStays r,
             holdTimer := if r.holdLimit = 0 ∨ s.sc.state ≠ .member then none else some 0 }

/-- The notice of a grant: TOO_LATE if the request was being withdrawn (R113). -/
def HoldRecord.grantKind (r : HoldRecord) : NoticeKind :=
  if r.state = .claimCancel ∨ r.state = .withdrawing then .tooLate else .granted

/-- The outbound queue and the lines after a grant on a record: no request frame of the slot is left QUEUED; or, its pin deasserted, a YIELD
is, unless it is deferred, and no line of the lock is active (R108, R113, R119, R132). -/
def State.grantFollows (s t : State) (l : Lock) (r : HoldRecord) (g : Generation) : Prop :=
  (s.pinFell r = false → ∀ e ∈ t.oq.entries, e.contending = false → ownerOf e.content ≠ .slot (tierOf l)) ∧
  (s.pinFell r = true → (∀ n, grantBinding s n = some l → grantActive t n = false) ∧
    (s.markStays r = false → newEntry (.yield l g .released) ∈ t.oq.entries))

/-- A record that a grant by another station's frame moves to HELD (R113). -/
def State.awaits (s : State) (r : HoldRecord) : Prop :=
  (r.state = .waiting ∨ r.state = .withdrawing) ∧ (s.sc.state = .member → s.bound r)

/-- The removal of a station hands a lock to this one, its head waiter (R15, R20). -/
def State.handed (s : State) (gone : Station) (l : Lock) : Bool :=
  !s.tc.uncollected[l] && s.au.replica.table[l].holder == some gone && s.au.replica.table[l].waiters.head? == some s.station

/-- The generation of a lock's next tenure (R15). -/
def State.nextTenure (s : State) (l : Lock) : Generation := s.au.replica.table[l].generation + 1

/-- A slot after the removal of a station: a record whose lock is handed on has its grant, and any other is as it was (R20, R113). -/
def State.slotAfter (s : State) (gone : Station) (i : Tier) : Option HoldRecord :=
  (s.rt.slots[i]).map fun r =>
    if tierOf r.lock = i ∧ s.handed gone r.lock = true then s.grantTaken r (s.nextTenure r.lock) else r

/-- This station after the removal of another has handed locks to it: their records, their frames and lines, the guards, and the request
inputs as they were (R20, R108, R113, R130). -/
def State.handsOver (s t : State) (gone : Station) : Prop :=
  (∀ i : Tier, t.rt.slots[i] = s.slotAfter gone i) ∧ t.ri = s.ri ∧
  (∀ l r, s.handed gone l = true → recordFor s l = some r → s.grantFollows t l r (s.nextTenure l)) ∧
  ((∀ l r, s.handed gone l = true → recordFor s l = some r → s.pinFell r = false) →
    s.guardsStarted t fun l => s.handed gone l = true ∧ (recordFor s l).isSome = true)

/-- The PIN_REFUSED notice of a lock with a bus sequence (R107, R197). -/
def pinRefusedOf (q : BusSeq) (l : Lock) : Notice :=
  { kind := .pinRefused, lock := some l, station := none, generation := none, qualifier := .none, busSeq := q }

/-- A record in another slot refuses a new claim of the lock by the tier rule or the pending rule (R104, R107). -/
def State.blocks (s : State) (l : Lock) : Bool :=
  (List.finRange 8).any fun u => u != tierOf l && (s.rt.slots[u]).any fun r => decide (tierOf l ≤ u) || isPending r

/-- The slot of a record of pin origin has emptied, its notice among the first and the rest placed after it: an asserted pin that is not
ignored claims anew, or is refused by the tier or pending rule, with PIN_REFUSED and the pin ignored; otherwise the slot stays empty (R104,
R107, R108, R136). -/
def State.pinReclaims (s t : State) (p : Pin) (l : Lock) (q : BusSeq) (first rest : List Notice) : Prop :=
  (s.ri.inputs[p].stable = true → s.ri.inputs[p].ignored = false →
    (s.blocks l = false →
      t.rt.slots = putAt s.rt.slots (tierOf l) (some (s.pinRecord p l)) ∧ newEntry (.claim l .wait) ∈ t.oq.entries ∧
      t.ri = s.ri ∧ t.hp = s.hp.noticed (first ++ rest)) ∧
    (s.blocks l = true →
      t.rt.slots = putAt s.rt.slots (tierOf l) none ∧
      t.ri.inputs = putAt s.ri.inputs p { s.ri.inputs[p] with ignored := true } ∧
      t.hp = s.hp.noticed (first ++ pinRefusedOf q l :: rest))) ∧
  (s.ri.inputs[p].stable = false ∨ s.ri.inputs[p].ignored = true →
    t.rt.slots = putAt s.rt.slots (tierOf l) none ∧ t.ri = s.ri ∧ t.hp = s.hp.noticed (first ++ rest))

/-- The notices that the void of an attempt gives before any drop: WITHDRAWN for a CLAIM_CANCEL record, with PIN_REFUSED where its pin, asserted
again, is refused a new claim; CLAIM_FAILED for a CLAIMING record at the sixteenth void; none for any other entry (R107, R108, R111, R117). -/
def State.voidNotices (s : State) (e : Entry) : List Notice :=
  match e.content with
  | .claim l _ =>
    match recordFor s l with
    | some r =>
      if e.discard = true ∨ s.sc.state ≠ .member then []
      else if r.state = .claimCancel then
        withdrawnNotice l s :: (match r.origin with
          | .host => []
          | .req p =>
            if s.ri.inputs[p].stable && !s.ri.inputs[p].ignored && s.blocks l then [pinRefusedOf s.au.replica.busSeq l] else [])
      else if r.state = .claiming ∧ 15 ≤ e.voids then [{ withdrawnNotice l s with kind := .claimFailed }]
      else []
    | none => []
  | _ => []

/-- No lock is bound to two request inputs, as CONFIGURE requires (R187). -/
def State.pinsDistinct (s : State) : Prop :=
  ∀ p q : Pin, p ≠ q → requestBinding s p = requestBinding s q → requestBinding s p = none

/-- An attempt of this station is under way: e is the one CONTENDING entry, older entries before it and younger ones after it. -/
def State.attempts (s : State) (before : List Entry) (e : Entry) (after : List Entry) : Prop :=
  s.inReset = false ∧ s.oq.entries = before ++ e :: after ∧ e.contending = true ∧ ∀ x ∈ before ++ after, x.contending = false

/-- A command that ends the attempt under way without acceptance, whether that is a void, and the line after it: ARBITRATION_LOST, an
unconfirmed own start bit, or a dominant verdict bit after a reading with this station's counts (R150, R151, R166, R167, R172, R174,
R175, R177). -/
def State.endsAttempt (s : State) (c : Instr) (voided : Bool) (x : LineController) : Prop :=
  (c = .arbitrationLost ∧ voided = false ∧ s.lc.state = .sending ∧
    x = { s.lc with state := .receiving, sending := none }) ∨
  (c = .unconfirmedStartBit ∧ voided = true ∧ s.lc.state = .idle ∧
    x = { s.lc with sending := none,
                    txFaults := if voting s.sc.state then min 8 (s.lc.txFaults + 1) else s.lc.txFaults }) ∨
  (∃ f rd, c = .frameVoided rd ∧ voided = true ∧ s.lc.state = .sending ∧ s.lc.sending = some f ∧
    (collisionIn (frameCells f) rd = true → s.lc.collisions < 3) ∧
    x = { s.lc with
          state := .closing, sending := none, cells := rd.cells, crc := crcOf (frameBytes f),
          collisions := if collisionIn (frameCells f) rd then s.lc.collisions + 1 else 0,
          txFaults := if voting s.sc.state = false then s.lc.txFaults
                      else if mistransmitIn (frameCells f) rd then min 8 (s.lc.txFaults + 1) else 0 })

/-- The mute condition of R177 on a Line Controller: 8 receive faults in a row from at least two senders, the unknown sender counting as
one, or 8 transmit faults in a row. -/
def LineController.mute (x : LineController) : Prop :=
  x.rxFaults = 8 ∧ 2 ≤ countOf x.faultSenders + (if x.faultUnknown then 1 else 0) ∨ x.txFaults = 8

/-- A fault sender after a receive fault of sender m has been counted, none standing for the unknown sender (R176). -/
def LineController.faultedBy (x : LineController) (m k : Option Station) : Prop :=
  k = m ∨ (match k with | some t => x.faultSenders[t] = true | none => x.faultUnknown = true)

/-- The receive fault count and the fault senders after a receive fault of sender m; the count stays at 8 (R176). -/
def LineController.faulted (x : LineController) (m : Option Station) (y : LineController) : Prop :=
  y.rxFaults = min 8 (x.rxFaults + 1) ∧ (∀ k : Station, y.faultSenders[k] = true ↔ x.faultedBy m (some k)) ∧
  (y.faultUnknown = true ↔ x.faultedBy m none)

/-- The entry back in QUEUED with its class and age kept, and one more void for an abandonable kind that was voided (R150, R151). -/
def Entry.returned (e : Entry) (voided : Bool) : Entry :=
  { e with contending := false, voids := if voided && abandonable e.content then e.voids + 1 else e.voids }

/-- The command of an accepted frame of a kind. -/
def frameCommand : Kind → Reading → Instr
  | .claim, rd => .claimFrame rd
  | .yield, rd => .yieldFrame rd
  | .withdraw, rd => .withdrawFrame rd
  | .evict, rd => .evictFrame rd
  | .depart, rd => .departFrame rd
  | .beacon, rd => .beaconFrame rd
  | .syncAsk, rd => .syncAskFrame rd
  | .page, rd => .pageFrame rd
  | .enrol, rd => .enrolFrame rd
  | .found, rd => .foundFrame rd

/-- No command at the front of the queue is a frame that this station receives under its own number (R14, R33). -/
def State.numberAlone (s : State) : Prop :=
  ∀ c rest rd f, s.pending = c :: rest → (∃ k, c = frameCommand k rd) → s.hears rd f → f.sender ≠ s.station

/-- The Line Controller of a voting receiver at the end of a clean frame's verdict bit (R170, R172, R176). -/
def LineController.heard (x : LineController) (l : List Cell) : LineController :=
  { x with state := .closing, cells := l, crc := crcOf (coveredBytes l), rxFaults := 0,
           faultSenders := noStations, faultUnknown := false }

/-- The Apply Unit after another station's frame has been applied (R37, R39). -/
def ApplyUnit.after (x : Replica) : ApplyUnit :=
  { replica := { x with busSeq := x.busSeq + 1 }, streakCount := 0, streakSenders := noStations }

/-- The presence state after a frame of another member, whose silence timer restarts (R57). -/
def PresenceMonitor.heard (x : PresenceMonitor) (t : Station) : PresenceMonitor :=
  { x with silence := if x.silence[t].isSome then putAt x.silence t (some 0) else x.silence }

/-- The values of the 20 bytes of a configuration record that CONFIGURE accepts (R187, R206). -/
def recordInRange (b : Vector Byte 20) : Prop :=
  b[0].toNat ≤ 3 ∧ 1 ≤ b[1].toNat ∧ b[1].toNat ≤ 32 ∧ b[2].toNat ≤ 15 ∧ b[3].toNat ≤ 1
    ∧ (∀ i : Fin 12, b[4 + i.val].toNat ≤ 63 ∨ b[4 + i.val] = 0xFF)
    ∧ ∀ p q : Pin, p ≠ q → b[12 + p.val] = b[12 + q.val] → b[12 + p.val] = 0xFF

/-- A voting station receives a frame, clean; its collection, if it is COLLECTING, is not complete (R32, R87). -/
def State.receives (s : State) (rd : Reading) (f : Frame) : Prop :=
  s.hears rd f ∧ voting s.sc.state = true ∧ (s.sc.state = .collecting → s.tc.collected ≤ 15)

/-- A station with presence duties has sent a frame in step with its replica, and it is accepted (R33). In DEPARTING it has no fence cause
(R61; State.stateLawful). -/
def State.sendsInStep (s : State) (rd : Reading) (f : Frame) : Prop :=
  s.sends rd f ∧ (s.sc.state = .member ∨ s.sc.state = .departing ∧ fenceSet s = (false, false)) ∧ f.sender = s.station ∧ s.inStep f

/-- In DEPARTING no new frame is placed for a record (R123). -/
def State.placesNone (s t : State) : Prop :=
  s.sc.state = .departing → ∀ e ∈ t.oq.entries, isRequest e.content = true → e ∈ s.oq.entries

/-- What a frame that another station sent leaves as it was at a voting receiver, whatever it does to the replica and the hold list: the
straps, the Station Controller, the collection, and the line and the presence state but for what hearing the frame does. -/
def State.followed (s t : State) (rd : Reading) (f : Frame) : Prop :=
  t.inReset = s.inReset ∧ t.station = s.station ∧ t.bitRate = s.bitRate ∧ t.sc = s.sc ∧ t.tc = s.tc ∧ t.lc = s.lc.heard rd.cells ∧
    (present s.sc.state = true → t.pm = s.pm.heard f.sender) ∧ (s.pm = .idle → t.pm = .idle)

/-- What a frame that does not concern this station's own locks leaves as it was: the hold list, the grant lines, the request inputs, the
host port, and in the outbound queue the request entries and an attempt under way. -/
def State.sameLocks (s t : State) : Prop :=
  t.rt = s.rt ∧ t.gl = s.gl ∧ t.ri = s.ri ∧ t.hp = s.hp ∧
    t.oq.entries.filter (fun e => e.contending || isRequest e.content)
      = s.oq.entries.filter fun e => e.contending || isRequest e.content

/-- The replica after a frame has removed a station (R20, R43, R49); marks are the uncollected marks. -/
def Replica.without (marks : Vector Bool 64) (gone : Station) (r x : Replica) : Prop :=
  x.busSeq = r.busSeq + 1 ∧ (∀ m : Station, x.roster[m] = (r.roster[m] && decide (m ≠ gone))) ∧
  (∀ l : Lock,
    (marks[l] = true → x.table[l] = r.table[l]) ∧
    (marks[l] = false →
      (r.table[l].holder ≠ some gone →
        x.table[l] = { r.table[l] with waiters := r.table[l].waiters.erase gone }) ∧
      (r.table[l].holder = some gone →
        (r.table[l].waiters = [] → x.table[l] = { r.table[l] with holder := none }) ∧
        (∀ w rest, r.table[l].waiters = w :: rest →
          x.table[l] = { holder := some w, generation := r.table[l].generation + 1, waiters := rest })))) ∧
  (¬ (r.transfer.running = true ∧ r.transfer.feeder = gone) →
    x.transfer = { r.transfer with roundList := r.transfer.roundList.erase gone,
                                   pendingList := r.transfer.pendingList.erase gone }) ∧
  (r.transfer.running = true → r.transfer.feeder = gone →
    (∀ m : Station, x.roster[m] = true → (∀ k : Station, k < m → x.roster[k] = false) →
      x.transfer = { running := true, feeder := m, round := r.transfer.round + 1, nextPage := 0,
                     roundList := r.transfer.roundList.erase gone, pendingList := r.transfer.pendingList.erase gone }) ∧
    ((∀ m : Station, x.roster[m] = false) →
      x.transfer = { running := false, feeder := gone, round := r.transfer.round + 1, nextPage := 0, roundList := [],
                     pendingList := [] }))

/-- The station has left the voting states with everything it held on the bus cleared (R30, R73, R95, R103). -/
def State.offBus (t : State) : Prop :=
  t.au = .cleared ∧ t.rt = .empty ∧ t.pm = .idle ∧ t.tc = .cleared ∧ t.gl = .stopped ∧
    (∀ e ∈ t.oq.entries, e.contending = true ∧ e.discard = true)

/-- The Station Controller in another state, its join timers at 0 (R74, R95). -/
def StationController.inState (x : StationController) (k : StationState) : StationController :=
  { x with state := k, foundingTimer := 0, roundTimer := 0, staleMark := false }

/-- A COLLECTING or ENROLLING station after a frame has removed a member. COLLECTING goes back to WAIT_ROUND with its replica cleared, the
ask count kept and the round timer at 0, if that member fed its running round; ENROLLING goes to LISTEN if no member is left; otherwise the
frame is followed (R49, R85, R88, R90). -/
def State.joinFollows (s t : State) (gone : Station) (rd : Reading) (f : Frame) : Prop :=
  (s.sc.state = .collecting → s.au.replica.transfer.running = true → s.au.replica.transfer.feeder = gone →
    t.sc = s.sc.inState .waitRound ∧ t.offBus ∧ t.hp = s.hp ∧ t.ri = s.ri) ∧
  (s.sc.state = .enrolling → (∀ m : Station, s.au.replica.roster[m] = true → m = gone) →
    t.sc = s.sc.inState .listen ∧ t.offBus ∧ t.hp = s.hp ∧ t.ri = s.ri) ∧
  (s.sc.state = .collecting ∧ ¬ (s.au.replica.transfer.running = true ∧ s.au.replica.transfer.feeder = gone) ∨
      s.sc.state = .enrolling ∧ (∃ m : Station, m ≠ gone ∧ s.au.replica.roster[m] = true) →
    s.followed t rd f ∧ t.au.streakCount = 0 ∧ t.au.streakSenders = noStations ∧
    Replica.without s.tc.uncollected gone s.au.replica t.au.replica ∧ t.rt = .empty ∧ t.hp = s.hp ∧ t.ri = s.ri)

/-- A PAGE qualifies: it is the page that the feeder of the running round sends next (R47). -/
def State.qualifies (s : State) (f : Frame) : Prop :=
  s.au.replica.transfer.running = true ∧ s.au.replica.transfer.feeder = f.sender ∧
    s.au.replica.transfer.round = byteAt f.payload 0 ∧ s.au.replica.transfer.nextPage = (byteAt f.payload 1).toNat

/-- The transfer record x after a PAGE: unchanged by one that does not qualify; otherwise the next page advances, and page 16 ends the round,
IDLE with none pending and else with a new round for the pending stations under the lowest-numbered member (R46, R47, R48). -/
def State.pageTaken (s : State) (f : Frame) (x : TransferRecord) : Prop :=
  (¬ s.qualifies f → x = s.au.replica.transfer) ∧
  (s.qualifies f →
    ((byteAt f.payload 1).toNat < 16 →
      x = { s.au.replica.transfer with nextPage := s.au.replica.transfer.nextPage + 1 }) ∧
    ((byteAt f.payload 1).toNat = 16 → s.au.replica.transfer.pendingList = [] →
      x = { s.au.replica.transfer with running := false, nextPage := 0, roundList := [] }) ∧
    ((byteAt f.payload 1).toNat = 16 → s.au.replica.transfer.pendingList ≠ [] →
      ∀ m : Station, s.au.replica.roster[m] = true → (∀ k : Station, k < m → s.au.replica.roster[k] = false) →
      x = { running := true, feeder := m, round := s.au.replica.transfer.round + 1, nextPage := 0,
            roundList := s.au.replica.transfer.pendingList, pendingList := [] }))

/-- A lock notice as this station places it in the application of a frame (R126, R196). -/
def lockNoticeOf (k : NoticeKind) (l : Lock) (g : Option Generation) (q : Qualifier) (s : State) : Notice :=
  { kind := k, lock := some l, station := none, generation := g, qualifier := q, busSeq := s.au.replica.busSeq + 1 }

/-- The notices of the grants that the removal of a station gives to this one, in ascending lock order (R20, R113). -/
def State.grantNotices (s : State) (gone : Station) : List Notice :=
  (List.finRange 64).flatMap fun l =>
    match recordFor s l with
    | some r => if s.handed gone l then [lockNoticeOf r.grantKind l (some (s.nextTenure l)) .none s] else []
    | none => []

/-- The Line Controller of a non-voting receiver at the end of a clean frame's verdict bit (R170, R172). -/
def LineController.overheard (x : LineController) (l : List Cell) : LineController :=
  { x with state := .closing, cells := l, crc := crcOf (coveredBytes l) }

/-- The desync condition for a frame that is an outsider by sequence (R40): the streak reaches 3 with two senders, or with every other
member of the roster, of which there is one. -/
def State.desyncs (s : State) (f : Frame) : Prop :=
  2 ≤ s.au.streakCount ∧
    ((∃ a b : Station, a ≠ b ∧ (a = f.sender ∨ s.au.streakSenders[a] = true) ∧
        (b = f.sender ∨ s.au.streakSenders[b] = true)) ∨
      ((∃ a : Station, a ≠ s.station ∧ s.au.replica.roster[a] = true) ∧
        ∀ a : Station, a ≠ s.station → s.au.replica.roster[a] = true → a = f.sender ∨ s.au.streakSenders[a] = true))

end Sys2Proof.Machine
end

