-- ==== Sys2Proof/Certificates/Slice0/Obligations.lean ====
section
/-! DEFINITION. The statements for the provers. Each docstring names the rules of the manual it formalises; a clause that rests on the
model's own choice names the log entry. -/

open Sys2Proof Sys2Proof.Machine

/-! ### The machine -/

/-- A step takes the command at the front of the queue and runs it on the station with the queue's rest. The rules make each command an
indivisible step (R31, R105, R182); the queue is the model's (log entry 31). -/
def Obligations.StepRunsFrontCommand : Prop :=
  ∀ (c : Instr) (rest : List Instr) (s : State), s.pending = c :: rest → step s = exec c { s with pending := rest }

/-- On an empty queue a due limit is taken as its command is; with none due a millisecond passes, and every timer that runs advances by
one: own-contact, beacon age, silence, stranding, founding, round, hold, guard and debounce; nothing else changes but the host port's
clock. During a hard reset nothing happens (R26, R53, R56, R57, R67, R77, R83, R120, R130, R135, R209). That the clock acts on an empty
queue, in whole milliseconds, takes limits one by one, when a limit is due, and that the host clocks the port meanwhile, is the model's
choice (log entries 1, 2, 24 and 32). -/
def Obligations.IdleStepFollowsClock : Prop :=
  ∀ s : State, s.pending = [] →
    (dueLimits s ≠ [] → ∃ c ∈ dueLimits s,
      step s = exec c { s with choices := if 2 ≤ (dueLimits s).length then s.choices + 1 else s.choices }) ∧
    (s.inReset = true → step s = .next s) ∧
    (dueLimits s = [] → s.inReset = false → ∃ t, step s = .next t ∧
      t = { s with pm := t.pm, sc := t.sc, rt := t.rt, gl := t.gl, ri := t.ri, hp := hostClock s.hp } ∧
      t.pm.contact = s.pm.contact ∧ t.pm.quorum = s.pm.quorum ∧ t.pm.attained = s.pm.attained ∧
      t.pm.ownContact = (if present s.sc.state then s.pm.ownContact + 1 else s.pm.ownContact) ∧
      t.pm.beaconAge = s.pm.beaconAge.map (· + 1) ∧ t.pm.stranding = s.pm.stranding.map (· + 1) ∧
      (∀ m : Station, t.pm.silence[m] = (s.pm.silence[m]).map (· + 1)) ∧
      t.sc = { s.sc with
        foundingTimer := if s.sc.state = .listen then s.sc.foundingTimer + 1 else s.sc.foundingTimer,
        roundTimer := if s.sc.state = .waitRound ∨ s.sc.state = .collecting then s.sc.roundTimer + 1
                      else s.sc.roundTimer } ∧
      (∀ i : Tier, t.rt.slots[i] = (s.rt.slots[i]).map fun r => { r with holdTimer := r.holdTimer.map (· + 1) }) ∧
      (∀ (n : GrantLine) a, s.gl.guards[n] = .running a → t.gl.guards[n] = .running (a + 1)) ∧
      (∀ n : GrantLine, (∀ a, s.gl.guards[n] ≠ .running a) → t.gl.guards[n] = s.gl.guards[n]) ∧
      (∀ p : Pin, t.ri.inputs[p] = { s.ri.inputs[p] with debounce := (s.ri.inputs[p].debounce).map (· + 1) }))

/-- Every command completes with a next state and leaves the queue of waiting commands; and only the end of a hard reset samples the
straps (R209). That no command faults or is refused by the model is log entry 25, and that a command leaves the queue alone is the
model's form of waiting commands (log entry 31). -/
def Obligations.EveryCommandCompletes : Prop :=
  ∀ (c : Instr) (s : State), ∃ t, exec c s = .next t ∧ t.pending = s.pending ∧
    ((∀ n r, c ≠ .hardResetEnd n r) → t.station = s.station ∧ t.bitRate = s.bitRate)

/-! ### Resets -/

/-- A hard reset clears every block and puts every output at its reset level, with the pins as they are; its end samples the straps, and
the request inputs are filtered from then on (R30, R73, R74, R125, R130, R135, R136, R145, R179, R200, R209). That the blocks are clear
from the assertion on, with straps and pins kept, is log entry 7, with SSn log entry 6 as well; the values that the manual gives no reset
for are the model's: the receive cell buffer, the CRC register and the count of recessive bits, the collected count and marks, and the port's
count and result (log entries 19, 34 and 35). -/
def Obligations.HardResetClearsEveryBlock : Prop :=
  (∀ s : State, ∃ t, exec .hardReset s = .next t ∧ t.inReset = true ∧ t.quiet ∧ t.lc = .reset ∧ t.au = .cleared ∧ t.pm = .idle ∧
    t.sc = .reset ∧ t.tc = .cleared ∧ t.rt = .empty ∧ t.oq.entries = [] ∧ t.gl = .stopped ∧
    (∀ p : Pin, t.ri.inputs[p] = { raw := s.ri.inputs[p].raw, stable := false, debounce := none, ignored := false }) ∧
    t.hp = { HostPort.reset with selected := s.hp.selected } ∧ t.station = s.station ∧ t.bitRate = s.bitRate) ∧
  (∀ (s : State) (straps : Station) (rate : BitVec 2), s.inReset = true →
    ∃ x, exec (.hardResetEnd straps rate) s = .next { s with inReset := false, station := straps, bitRate := rate, ri := x } ∧
      ∀ p : Pin, x.inputs[p] = { s.ri.inputs[p] with debounce := if s.ri.inputs[p].raw then some 0 else none })

/-! ### Commands that set up and move the station -/

/-- CONFIGURE is checked in the order of R187: LOCKED outside UNCONFIGURED, RANGE for a value that is not accepted, and otherwise OK with
the record stored and the station in READY; a refusal changes nothing (R75, R186, R187, R206). -/
def Obligations.ConfigureChecksAndStores : Prop :=
  ∀ (b : Vector Byte 20) (s : State), portOpen s = true →
    (s.sc.state ≠ .unconfigured →
      exec (.configureCommand b) s = .next { s with hp := s.hp.answered .configure 21 .locked [] }) ∧
    (s.sc.state = .unconfigured → ¬ recordInRange b →
      exec (.configureCommand b) s = .next { s with hp := s.hp.answered .configure 21 .range [] }) ∧
    (s.sc.state = .unconfigured → recordInRange b →
      ∃ c : ConfigRecord,
        exec (.configureCommand b) s
          = .next { s with sc := { s.sc with state := .ready, config := some c }, hp := s.hp.answered .configure 21 .ok [] } ∧
        some (periodTime c.period) = [5, 10, 20, 50][b[0].toNat]? ∧ c.quorum = b[1].toNat ∧ c.guardTime = b[2].toNat ∧
        (c.autoRejoin = true ↔ b[3] = 1) ∧
        (∀ n : GrantLine, (c.grants[n] = none ↔ b[4 + n.val] = 0xFF) ∧
          ∀ l, c.grants[n] = some l → l.val = b[4 + n.val].toNat) ∧
        (∀ p : Pin, (c.requests[p] = none ↔ b[12 + p.val] = 0xFF) ∧
          (∀ l, c.requests[p] = some l → l.val = b[12 + p.val].toNat) ∧ c.limits[p] = b[16 + p.val]))

/-- JOIN in READY moves the station to LISTEN with the founding timer and the ask count at 0; in any other state it gives STATE and
changes nothing (R76, R188). -/
def Obligations.JoinTaken : Prop :=
  ∀ s : State, portOpen s = true →
    (s.sc.state = .ready →
      exec .joinCommand s
        = .next { s with sc := { s.sc with state := .listen, foundingTimer := 0, askCount := 0 },
                         hp := s.hp.answered .join 1 .ok [] }) ∧
    (s.sc.state ≠ .ready → exec .joinCommand s = .next { s with hp := s.hp.answered .join 1 .state [] })

/-- LEAVE in MEMBER makes every line inactive, purges the QUEUED request frames, queues the DEPART behind what stays, stops the hold timers
and goes to DEPARTING with the replica and the timers of presence kept; in a joining state it purges the queue and clears the replica, in
READY; elsewhere it gives STATE and changes nothing (R73, R92, R121, R123, R132, R154). That the mismatch streak and the fault counts stay
on the way from MEMBER to DEPARTING is log entry 13; the fate of the withdraw-asked mark, left open here, is log entry 14. That the
collected count and the marks are cleared with a replica is log entry 34. -/
def Obligations.LeaveTaken : Prop :=
  ∀ s : State, portOpen s = true →
    (s.sc.state = .member → ∃ t, exec .leaveCommand s = .next t ∧ t.sc.state = .departing ∧ t.sc.config = s.sc.config ∧
      (∀ n, grantActive t n = false) ∧ t.gl = .stopped ∧ t.au = s.au ∧ t.tc = s.tc ∧ t.lc = s.lc ∧ t.ri = s.ri ∧
      t.oq.entries = (s.oq.entries.filter fun e => e.contending || !isRequest e.content) ++ [newEntry .depart] ∧
      (∀ i : Tier, (t.rt.slots[i]).isSome = (s.rt.slots[i]).isSome) ∧
      (∀ (i : Tier) r, s.rt.slots[i] = some r → ∃ r', t.rt.slots[i] = some r' ∧ r'.holdTimer = none ∧ r'.deferred = none ∧
        r' = { r with holdTimer := none, deferred := none, withdrawAsked := r'.withdrawAsked }) ∧
      t.pm = { s.pm with contact := false, quorum := false, attained := false, stranding := none } ∧
      t.hp = s.hp.answered .leave 1 .ok []) ∧
    (joining s.sc.state = true → ∃ t, exec .leaveCommand s = .next t ∧ t.sc.state = .ready ∧ t.sc.config = s.sc.config ∧
      t.sc.staleMark = false ∧ t.sc.foundingTimer = 0 ∧ t.sc.roundTimer = 0 ∧ t.au = .cleared ∧ t.tc = .cleared ∧
      t.oq.entries = (s.oq.entries.filter (·.contending)).map (fun e => { e with discard := true }) ∧ t.ri = s.ri ∧
      t.hp = s.hp.answered .leave 1 .ok []) ∧
    (s.sc.state ≠ .member → joining s.sc.state = false →
      exec .leaveCommand s = .next { s with hp := s.hp.answered .leave 1 .state [] })

/-- RESET is taken in every state: the soft reset, with RESET_DONE as the only notice, and the configuration record, the straps and the
request inputs kept (R74, R96, R156, R178, R179, R189, R200). That the collected count and the marks are then clear is log entry 34. -/
def Obligations.ResetTaken : Prop :=
  ∀ s : State, portOpen s = true → ∃ t, exec .resetCommand s = .next t ∧
    t.sc = { StationController.reset with
             state := if s.sc.config.isSome then .ready else .unconfigured, config := s.sc.config } ∧
    t.station = s.station ∧ t.bitRate = s.bitRate ∧ t.au = .cleared ∧ t.pm = .idle ∧ t.tc = .cleared ∧ t.rt = .empty ∧
    t.oq.entries = [] ∧ t.gl = .stopped ∧ t.ri = s.ri ∧
    t.lc.state = .seeking ∧ t.lc.sending = none ∧ t.lc.collisions = 0 ∧ t.lc.rxFaults = 0 ∧ t.lc.txFaults = 0 ∧
    t.lc.faultSenders = noStations ∧ t.lc.faultUnknown = false ∧ attention t = true ∧
    t.hp = { s.hp with phase := .turnaround, bits := 8, taken := some .reset, resultCode := some .ok, resultData := [],
                       notices := [stationNoticeOf .resetDone], overflow := false, truncated := false, lateOverflow := false }

/-! ### Lock commands -/

/-- CLAIM answers with the first result of R106 whose condition holds; on OK it places a record in the slot of the lock's tier with origin
HOST, state CLAIMING, the given hold limit, generation none and the mark clear, and a CLAIM frame at class 5; on any other result no
record changes and no frame is placed (R106). -/
def Obligations.ClaimTaken : Prop :=
  ∀ (lock mode limit : Byte) (s : State), portOpen s = true →
    ((lock.toNat > 63 ∨ mode.toNat > 1) →
      exec (.claimCommand lock mode limit) s = .next { s with hp := s.hp.answered .claim 4 .range [] }) ∧
    (mode.toNat ≤ 1 → ∀ l : Lock, lock.toNat = l.val →
      (s.sc.state ≠ .member →
        exec (.claimCommand lock mode limit) s = .next { s with hp := s.hp.answered .claim 4 .state [] }) ∧
      (s.sc.state = .member →
        ((∃ p, requestBinding s p = some l) →
          exec (.claimCommand lock mode limit) s = .next { s with hp := s.hp.answered .claim 4 .pinBound [] }) ∧
        ((∀ p, requestBinding s p ≠ some l) →
          ((∃ r, s.rt.slots[tierOf l] = some r ∧ r.lock = l) →
            exec (.claimCommand lock mode limit) s = .next { s with hp := s.hp.answered .claim 4 .held [] }) ∧
          ((∀ r, s.rt.slots[tierOf l] = some r → r.lock ≠ l) →
            ((∃ i : Tier, (s.rt.slots[i]).isSome = true ∧ tierOf l ≤ i) →
              exec (.claimCommand lock mode limit) s = .next { s with hp := s.hp.answered .claim 4 .order [] }) ∧
            ((∀ i : Tier, (s.rt.slots[i]).isSome = true → i < tierOf l) →
              ((∃ (i : Tier) (r : HoldRecord), s.rt.slots[i] = some r ∧ isPending r = true) →
                exec (.claimCommand lock mode limit) s = .next { s with hp := s.hp.answered .claim 4 .pending [] }) ∧
              ((∀ (i : Tier) r, s.rt.slots[i] = some r → isPending r = false) →
                exec (.claimCommand lock mode limit) s
                  = .next { s with
                      rt := RequestTracker.mk (putAt s.rt.slots (tierOf l) (some
                        { lock := l, origin := .host, state := .claiming, holdLimit := limit, generation := none,
                          withdrawAsked := false, holdTimer := none, deferred := none })),
                      oq := OutboundQueue.mk (s.oq.entries ++
                        [{ content := .claim l (if mode.toNat = 1 then .tryOnly else .wait), cls := 5, contending := false,
                           voids := 0, discard := false }]),
                      hp := s.hp.answered .claim 4 .ok [] }))))))

/-- The refusals that YIELD, WITHDRAW and RENEW share, in order: RANGE for a lock above 63, STATE outside MEMBER, PIN_BOUND for a pin-bound
lock; a refusal changes nothing (R109, R110, R112, R140, R190). -/
def Obligations.LockCommandsRefused : Prop :=
  ∀ (lock : Byte) (s : State), portOpen s = true →
    ∀ code : ResultCode,
      (lock.toNat > 63 ∧ code = .range) ∨ (lock.toNat ≤ 63 ∧ s.sc.state ≠ .member ∧ code = .state) ∨
      (s.sc.state = .member ∧ (∃ p l, requestBinding s p = some l ∧ l.val = lock.toNat) ∧ code = .pinBound) →
      exec (.yieldCommand lock) s = .next { s with hp := s.hp.answered .yield 2 code [] } ∧
      exec (.withdrawCommand lock) s = .next { s with hp := s.hp.answered .withdraw 2 code [] } ∧
      exec (.renewCommand lock) s = .next { s with hp := s.hp.answered .renew 2 code [] }

/-- YIELD on a HELD record makes every line of the lock inactive, stops the hold timer, moves the record to YIELDING and places a YIELD at
class 2 with the record's generation and reason RELEASED, or defers it while the mark is set. RENEW on a HELD record restarts the hold
timer of one that has a hold limit, and changes nothing of one that has none. On any other record, or none, each gives NOT_HELD and
changes nothing (R109, R112, R119, R120, R132). -/
def Obligations.YieldAndRenewTaken : Prop :=
  ∀ (l : Lock) (s : State), portOpen s = true → s.sc.state = .member → (∀ p, requestBinding s p ≠ some l) →
    (∀ r, s.rt.slots[tierOf l] = some r → r.lock = l → r.state = .held →
      (∃ t, exec (.yieldCommand (lockByte l)) s = .next t ∧ t.hp = s.hp.answered .yield 2 .ok [] ∧
        (∀ n : GrantLine, grantBinding s n = some l → grantActive t n = false ∧ t.gl.guards[n] = .stopped) ∧
        (∀ n : GrantLine, grantBinding s n ≠ some l → t.gl.guards[n] = s.gl.guards[n]) ∧
        (∀ i : Tier, i ≠ tierOf l → t.rt.slots[i] = s.rt.slots[i]) ∧
        (r.withdrawAsked = false →
          t.rt.slots[tierOf l] = some { r with state := .yielding, holdTimer := none } ∧
          t.oq.entries = s.oq.entries ++ [newEntry (.yield l (r.generation.getD 0) .released)]) ∧
        (r.withdrawAsked = true →
          t.rt.slots[tierOf l] = some { r with state := .yielding, holdTimer := none, deferred := some .released } ∧
          t.oq = s.oq) ∧
        t.sc = s.sc ∧ t.au = s.au ∧ t.pm = s.pm ∧ t.lc = s.lc ∧ t.tc = s.tc ∧ t.ri = s.ri) ∧
      (r.holdLimit ≠ 0 →
        exec (.renewCommand (lockByte l)) s
          = .next { s with rt := { slots := putAt s.rt.slots (tierOf l) (some { r with holdTimer := some 0 }) },
                           hp := s.hp.answered .renew 2 .ok [] }) ∧
      (r.holdLimit = 0 → exec (.renewCommand (lockByte l)) s = .next { s with hp := s.hp.answered .renew 2 .ok [] })) ∧
    ((∀ r, s.rt.slots[tierOf l] = some r → r.lock = l → r.state ≠ .held) →
      exec (.yieldCommand (lockByte l)) s = .next { s with hp := s.hp.answered .yield 2 .notHeld [] } ∧
      exec (.renewCommand (lockByte l)) s = .next { s with hp := s.hp.answered .renew 2 .notHeld [] })

/-- WITHDRAW by the state of the record: a QUEUED CLAIM is removed with its record and the notice WITHDRAWN, a CONTENDING one goes to
CLAIM_CANCEL, a WAITING record to WITHDRAWING with a WITHDRAW at class 3; a withdraw already begun stands; otherwise NOT_WAITING. A full
notice queue takes no notice, and OVERFLOW and the late-overflow mark are set (R110, R198). -/
def Obligations.WithdrawTaken : Prop :=
  ∀ (l : Lock) (s : State), portOpen s = true → s.sc.state = .member → (∀ p, requestBinding s p ≠ some l) →
    (∀ r, s.rt.slots[tierOf l] = some r → r.lock = l →
      (r.state = .claiming → slotContends .claim (tierOf l) s = false →
        exec (.withdrawCommand (lockByte l)) s
          = .next { s with
              rt := { slots := putAt s.rt.slots (tierOf l) none },
              oq := { entries := s.oq.entries.filter fun e => e.contending || ownerOf e.content != .slot (tierOf l) },
              hp := (s.hp.noticed [withdrawnNotice l s]).answered .withdraw 2 .ok [] }) ∧
      (r.state = .claiming → slotContends .claim (tierOf l) s = true →
        exec (.withdrawCommand (lockByte l)) s
          = .next { s with
              rt := { slots := putAt s.rt.slots (tierOf l) (some { r with state := .claimCancel, withdrawAsked := true }) },
              hp := s.hp.answered .withdraw 2 .ok [] }) ∧
      (r.state = .waiting →
        exec (.withdrawCommand (lockByte l)) s
          = .next { s with
              rt := { slots := putAt s.rt.slots (tierOf l) (some { r with state := .withdrawing, withdrawAsked := true }) },
              oq := { entries := s.oq.entries ++ [newEntry (.withdraw l)] },
              hp := s.hp.answered .withdraw 2 .ok [] }) ∧
      (r.state = .claimCancel ∨ r.state = .withdrawing →
        exec (.withdrawCommand (lockByte l)) s = .next { s with hp := s.hp.answered .withdraw 2 .ok [] })) ∧
    ((∀ r, s.rt.slots[tierOf l] = some r → r.lock = l → r.state = .held ∨ r.state = .yielding) →
      exec (.withdrawCommand (lockByte l)) s = .next { s with hp := s.hp.answered .withdraw 2 .notWaiting [] })

/-! ### Read commands -/

/-- READ_LOCK gives the entry with its standing at the take, or RANGE; READ_ROSTER the roster and the transfer record; READ_HOLDS the eight
slots; none changes a block (R191, R192, R193, R207). That a hold timer standing at its limit is still reported, with 0 remaining, is log
entry 23. -/
def Obligations.TableReadsTaken : Prop :=
  ∀ s : State, portOpen s = true →
    (∀ lock : Byte, lock.toNat > 63 →
      exec (.readLockCommand lock) s = .next { s with hp := s.hp.answered .readLock 2 .range [] }) ∧
    (∀ l : Lock, ∃ standing : Byte,
      exec (.readLockCommand (lockByte l)) s
        = .next { s with hp := s.hp.answered .readLock 2 .ok (
            [lockByte l, standing, optStationByte s.au.replica.table[l].holder]
              ++ generationBytes s.au.replica.table[l].generation
              ++ [BitVec.ofNat 8 s.au.replica.table[l].waiters.length]
              ++ (s.au.replica.table[l].waiters.map stationByte ++ List.replicate 8 0xFF).take 8
              ++ busSeqBytes s.au.replica.busSeq) } ∧
      (standing = 0 ↔ s.sc.state = .enrolling ∨ present s.sc.state = true ∨
        s.sc.state = .collecting ∧ s.tc.uncollected[l] = false) ∧
      (standing = 1 ↔ s.sc.state = .collecting ∧ s.tc.uncollected[l] = true) ∧
      (standing = 2 ↔ voting s.sc.state = false)) ∧
    (∃ marks : Vector Byte 4,
      exec .readRosterCommand s
        = .next { s with hp := s.hp.answered .readRoster 1 .ok (
            [BitVec.ofNat 8 (countOf s.au.replica.roster)] ++ marks.toList
              ++ [if s.au.replica.transfer.running then 1 else 0, stationByte s.au.replica.transfer.feeder,
                  s.au.replica.transfer.round, BitVec.ofNat 8 s.au.replica.transfer.nextPage]
              ++ [BitVec.ofNat 8 s.au.replica.transfer.roundList.length]
              ++ (s.au.replica.transfer.roundList.map stationByte ++ List.replicate 4 0xFF).take 4
              ++ [BitVec.ofNat 8 s.au.replica.transfer.pendingList.length]
              ++ (s.au.replica.transfer.pendingList.map stationByte ++ List.replicate 4 0xFF).take 4
              ++ busSeqBytes s.au.replica.busSeq) } ∧
      ∀ (k : Fin 4) (i : Fin 8),
        marks[k].getLsbD i.val = s.au.replica.roster[(Fin.ofNat 32 (8 * (3 - k.val) + i.val) : Station)]) ∧
    (∃ slots : Vector (List Byte) 8,
      exec .readHoldsCommand s = .next { s with hp := s.hp.answered .readHolds 1 .ok slots.toList.flatten } ∧
      ∀ i : Tier,
        ((present s.sc.state = false ∨ s.rt.slots[i] = none) → slots[i] = [0xFF, 0, 0, 0, 0, 0, 0, 0]) ∧
        (present s.sc.state = true → ∀ r, s.rt.slots[i] = some r → ∃ marks left : Byte,
          slots[i] = [lockByte r.lock, originByte r.origin, recordStateByte r.state, r.holdLimit, marks]
            ++ generationBytes (r.generation.getD 0) ++ [left] ∧
          marks.getLsbD 0 = r.generation.isSome ∧ marks.getLsbD 1 = r.withdrawAsked ∧
          marks.getLsbD 2 = (r.state == .held && r.holdTimer.isSome) ∧
          (∀ a, r.state = .held → r.holdTimer = some a → left.toNat = r.holdLimit.toNat - a / 10) ∧
          ((r.state ≠ .held ∨ r.holdTimer = none) → left = 0)))

/-- READ_NOTICE gives EMPTY on an empty queue, and otherwise the oldest notice with the number behind it; the completion of its result
removes that notice, and a result EMPTY removes none (R185, R195, R208). READ_STATUS gives the 13 bytes of R207 and clears the
late-overflow mark at its take; the completion of its result clears TRUNCATED if it was reported set, and OVERFLOW if it was reported set
and no notice was refused since (R194, R207). At the completion the port has clocked the result to its last bit; that the completion may be
taken from the phase TURNAROUND, carrying the clocks that are left, is the model's choice (log entry 24). -/
def Obligations.NoticeAndStatusReadTaken : Prop :=
  (∀ s : State, portOpen s = true →
    (s.hp.notices = [] → exec .readNoticeCommand s = .next { s with hp := s.hp.answered .readNotice 1 .empty [] }) ∧
    (∀ x rest, s.hp.notices = x :: rest →
      exec .readNoticeCommand s
        = .next { s with hp := s.hp.answered .readNotice 1 .ok (
            [noticeKindByte x.kind, optLockByte x.lock, optStationByte x.station, qualifierByte x.qualifier,
              if x.generation.isSome then 1 else 0] ++ generationBytes (x.generation.getD 0) ++ busSeqBytes x.busSeq
              ++ [BitVec.ofNat 8 rest.length]) })) ∧
  (∀ s : State, (s.hp.phase = .turnaround ∨ s.hp.phase = .result) → s.hp.taken = some .readNotice →
    (s.hp.resultCode = some .ok →
      exec .readNoticeCompletion s
        = .next { s with hp := { s.hp with
            phase := .filler, bits := 8 * (3 + s.hp.resultData.length), notices := s.hp.notices.tail } }) ∧
    (s.hp.resultCode = some .empty →
      exec .readNoticeCompletion s
        = .next { s with hp := { s.hp with phase := .filler, bits := 8 * (3 + s.hp.resultData.length) } })) ∧
  (∀ s : State, portOpen s = true → ∃ fences flags : Byte,
    exec .readStatusCommand s
      = .next { s with hp := HostPort.answered { s.hp with lateOverflow := false } .readStatus 1 .ok (
          [stateByte s.sc.state, fences, flags] ++ busSeqBytes s.au.replica.busSeq
            ++ [BitVec.ofNat 8 (countOf s.au.replica.roster), BitVec.ofNat 8 s.hp.notices.length, stationByte s.station,
                s.bitRate.setWidth 8, BitVec.ofNat 8 s.lc.rxFaults, BitVec.ofNat 8 s.lc.txFaults,
                BitVec.ofNat 8 s.lc.collisions]) } ∧
    (fences.getLsbD 0 = s.pm.contact ∧ fences.getLsbD 1 = s.pm.quorum ∧ fences.toNat < 4) ∧
    (flags.getLsbD 0 = s.pm.attained ∧ flags.getLsbD 1 = s.hp.overflow ∧ flags.getLsbD 2 = s.hp.truncated ∧
      flags.toNat < 8)) ∧
  (∀ (s : State) (code : ResultCode) (state fences flags : Byte) (more : List Byte),
    (s.hp.phase = .turnaround ∨ s.hp.phase = .result) → s.hp.taken = some .readStatus → s.hp.resultCode = some code →
    s.hp.resultData = state :: fences :: flags :: more →
    exec .readStatusCompletion s
      = .next { s with hp := { s.hp with
          phase := .filler, bits := 8 * (6 + more.length),
          truncated := if flags.getLsbD 2 then false else s.hp.truncated,
          overflow := if flags.getLsbD 1 = true ∧ s.hp.lateOverflow = false then false else s.hp.overflow } })

/-- The phases of a transaction: it begins at the fall of SSn; an unknown code is answered UNKNOWN and changes nothing else; it ends at the
rise of SSn, and a rise in the command or argument phase after an SCK edge sets TRUNCATED (R181, R183, R184). That the command and the
result held are cleared when the next transaction begins, and kept past the end of this one, is the model's choice (log entry 24). -/
def Obligations.TransactionPhases : Prop :=
  ∀ s : State,
    (s.inReset = false → s.hp.selected = false →
      exec .transactionBegin s
        = .next { s with hp := { s.hp with selected := true, phase := .command, bits := 0, taken := none, resultCode := none,
                                           resultData := [] } }) ∧
    (∀ code : Byte, portOpen s = true → commandOfCode code = none →
      exec (.unknownCommand code) s
        = .next { s with hp := { s.hp with phase := .turnaround, bits := 8, taken := none, resultCode := some .unknown,
                                           resultData := [] } }) ∧
    (s.hp.phase ≠ .arguments →
      exec .transactionEnd s = .next { s with hp := { s.hp with selected := false, phase := .idle } }) ∧
    (s.hp.phase = .command ∨ s.hp.phase = .arguments →
      exec .transactionTruncated s
        = .next { s with hp := { s.hp with selected := false, phase := .idle, truncated := true } })

/-- The bytes on the host port. The bits sampled on SDI make bytes, most significant bit first (R180); the command byte picks its command
by its code, whatever bytes follow the arguments (R182, R206). From the command byte the phase is ARGUMENTS until the last argument byte,
then TURNAROUND (R181). After the take SDO shifts out a filler byte, the result code, the result data and filler for ever, and it is low
before and at high impedance with no transaction (R180, R181, R185, R201). -/
def Obligations.PortBytes : Prop :=
  (∀ l : List Byte, bytesOfBits (l.flatMap bitsOf) = l) ∧
  (∀ (c : HostCommand) (code : Byte), commandOfCode code = some c ↔ code = codeOf c) ∧
  (∀ (c : HostCommand) (args more : List Byte), args.length = argumentBytes c →
    commandOfBits ((codeOf c :: args ++ more).flatMap bitsOf) = some (commandWith c args)) ∧
  (∀ (p : HostPort) (c : HostCommand) (args : List Byte), p.phase = .command → args.length ≤ argumentBytes c →
    (codeOf c :: args).foldl receiveByte p
      = { p with phase := if args.length < argumentBytes c then .arguments else .turnaround, bits := 8 * (1 + args.length),
                 taken := some c }) ∧
  (∀ (p : HostPort) (c : HostCommand) (code : ResultCode) (data : List Byte) (k : Nat),
    shiftOut (8 * (2 + data.length + k)) (p.answered c (1 + argumentBytes c) code data)
      = ((fillerByte :: resultByte code :: data ++ List.replicate k 0x00).flatMap bitsOf).map some) ∧
  (∀ p : HostPort, (sdoLevel p = none ↔ p.phase = .idle) ∧
    (p.phase = .command ∨ p.phase = .arguments → sdoLevel p = some false))

/-! ### The line and the outbound queue -/

/-- A bus opportunity revalidates the QUEUED station entries. An EVICT is due while its target is a member whose silence timer is at or above
5P; a PAGE while this station, in MEMBER or DEPARTING, is the feeder of a running round; a BEACON in MEMBER and DEPARTING, an own frame of
another kind having withdrawn it else (R55); a FOUND in FOUNDING; any other entry always. Those no longer due are removed, and a removed EVICT is
replaced by the eviction decision. Then the oldest entry of the lowest class becomes CONTENDING, and its frame carries the class, the station
number, the station's bus sequence, the reason of a YIELD in its flags, and the payload of its kind: lock, mode, generation, target, profile,
or the page the replica gives; with none left nothing is sent (R33, R58, R59, R98, R99, R142, R148, R149, R202, R203). That the start bit is
confirmed by a later event is log entry 28; that the opportunity may come at any moment in IDLE with an entry QUEUED and none CONTENDING is
log entry 36. -/
def Obligations.BusOpportunitySelects : Prop :=
  ∀ (s : State) (more : List Entry) (due : Content → Bool),
    s.inReset = false → s.lc.state = .idle → (∀ e ∈ s.oq.entries, e.contending = false) → s.oq.entries ≠ [] →
    (∀ m : Station, due (.evict m) = true ↔
      s.au.replica.roster[m] = true ∧ ∃ a, s.pm.silence[m] = some a ∧ 5 * beaconPeriod s ≤ a) →
    (due .page = true ↔ (s.sc.state = .member ∨ s.sc.state = .departing) ∧ s.au.replica.transfer.running = true ∧
      s.au.replica.transfer.feeder = s.station) →
    (due .beacon = true ↔ s.sc.state = .member ∨ s.sc.state = .departing) → (due .found = true ↔ s.sc.state = .founding) →
    (∀ c, (∀ m, c ≠ .evict m) → c ≠ .page → c ≠ .beacon → c ≠ .found → due c = true) →
    (((∀ e ∈ s.oq.entries, ownerOf e.content = .evict → due e.content = true) ∨ present s.sc.state = false ∨
        (∃ e ∈ s.oq.entries, ownerOf e.content = .evict ∧ due e.content = true) ∨
        (∀ (m : Station) a, s.pm.silence[m] = some a → a < 5 * beaconPeriod s)) ∧ more = [] ∨
      present s.sc.state = true ∧ (∃ e ∈ s.oq.entries, ownerOf e.content = .evict) ∧
        (∀ e ∈ s.oq.entries, ownerOf e.content = .evict → due e.content = false) ∧
        ∃ (m : Station) (a : Nat), s.pm.silence[m] = some a ∧ 5 * beaconPeriod s ≤ a ∧
          (∀ (k : Station) (b : Nat), k < m → s.pm.silence[k] = some b → b < 5 * beaconPeriod s) ∧
          more = [newEntry (.evict m)]) →
    ∃ t, exec .busOpportunity s = .next t ∧ t.lc.state = .idle ∧ t.au = s.au ∧ t.sc = s.sc ∧ t.rt = s.rt ∧ t.hp = s.hp ∧
      t.gl = s.gl ∧ t.tc = s.tc ∧ t.ri = s.ri ∧
      ((∀ e ∈ s.oq.entries, due e.content = false) → more = [] → t.lc = s.lc ∧ t.oq.entries = []) ∧
      (∀ before e after, s.oq.entries.filter (fun x => due x.content) ++ more = before ++ e :: after →
        (∀ x ∈ before, e.cls < x.cls) → (∀ x ∈ after, e.cls ≤ x.cls) →
        t.oq.entries = before ++ { e with contending := true } :: after ∧
        ∃ f, t.lc = { s.lc with sending := some f } ∧ f.cls = e.cls ∧ f.sender = s.station ∧ f.kind = kindOf e.content ∧
          f.busSeq = s.au.replica.busSeq ∧
          (f.kind ≠ .yield → f.flags = 0) ∧
          (∀ l m, e.content = .claim l m → f.payload = [lockByte l, if m = .tryOnly then 0x01 else 0x00]) ∧
          (∀ l g why, e.content = .yield l g why →
            f.flags = (if why = .expired then 1 else 0) ∧ f.payload = lockByte l :: generationBytes g) ∧
          (∀ l, e.content = .withdraw l → f.payload = [lockByte l]) ∧
          (∀ m, e.content = .evict m → f.payload = [stationByte m]) ∧
          (e.content = .depart → f.payload = []) ∧
          (∀ c, s.sc.config = some c →
            e.content = .beacon ∨ e.content = .syncAsk ∨ e.content = .enrol ∨ e.content = .found →
            f.payload = [codeOfPeriod c.period, BitVec.ofNat 8 c.quorum]) ∧
          (e.content = .page → f.payload = composePage s.au.replica))

/-- The Line Controller follows the bus: a start bit confirmed in IDLE begins a frame, SENDING with an entry of this station CONTENDING,
else RECEIVING, with the cell buffer emptied and the CRC register preset, and in LISTEN the founding timer restarts; the bus is idle after
the end bits of a followed frame and after 10 recessive bits in SEEKING; a dominant end bit sends the station to SEEKING, and no counter
changes (R77, R163 to R165, R173; the values of the bit count are log entry 19). -/
def Obligations.LineFollowsBus : Prop :=
  ∀ s : State, s.inReset = false →
    (s.lc.state = .idle →
      exec .startBitConfirmed s
        = .next { s with
            lc := { s.lc with state := if s.oq.entries.any (·.contending) then .sending else .receiving, cells := [],
                              crc := 0xFFFF, recessive := 0 },
            sc := { s.sc with foundingTimer := if s.sc.state = .listen then 0 else s.sc.foundingTimer } }) ∧
    (s.lc.state = .seeking → exec .busIdle s = .next { s with lc := { s.lc with state := .idle, recessive := 10 } }) ∧
    (s.lc.state = .closing → exec .busIdle s = .next { s with lc := { s.lc with state := .idle, recessive := 9 } }) ∧
    (s.lc.state = .closing → exec .endFault s = .next { s with lc := { s.lc with state := .seeking, recessive := 0 } })

/-- The end of a station frame's attempt without acceptance, at a lost arbitration (ARBITRATION_LOST), an unconfirmed own start bit
(UNCONFIRMED_START_BIT) or a dominant verdict bit (FRAME_VOIDED). The entry returns to QUEUED with its class and age, one more void for an
abandonable kind that was voided and none for another; an entry with a discard mark is removed; at its sixteenth void a FOUND in FOUNDING, a
SYNC_ASK in ASKING and an ENROL in ENROLLING give up the join, in READY with JOIN_FAILED. Only the line counts change beside: the collision
and transmit fault counts by what was read back, a lost arbitration none (R80, R81, R90, R150, R151, R155, R166, R167, R174, R175, R177).
Stated where the counts neither mute the station nor reach a fourth collision, which is LineFaultsDrop; but an ENROL at its sixteenth void
gives up the join whether or not they would mute it, since its owner is told first (log entry 11). That the collected count and the marks
are cleared with the replica of a join given up is log entry 34. -/
def Obligations.StationAttemptEnds : Prop :=
  ∀ (s : State) (before after : List Entry) (e : Entry) (c : Instr) (voided : Bool) (x : LineController),
    s.attempts before e after → s.endsAttempt c voided x →
    (voting s.sc.state = true → x.mute → e.content = .enrol ∧ e.discard = false ∧ voided = true ∧ 15 ≤ e.voids) →
    (e.discard = true → exec c s = .next { s with oq := OutboundQueue.mk (before ++ after), lc := x }) ∧
    (e.discard = false → isRequest e.content = false →
      (voided = true → abandonable e.content = true → e.voids < 15) →
      exec c s = .next { s with oq := OutboundQueue.mk (before ++ e.returned voided :: after), lc := x }) ∧
    (e.discard = false → voided = true → 15 ≤ e.voids →
      (e.content = .found ∧ s.sc.state = .founding ∨ e.content = .syncAsk ∧ s.sc.state = .asking ∨
        e.content = .enrol ∧ s.sc.state = .enrolling) →
      ∃ t, exec c s = .next t ∧ t.sc = s.sc.inState .ready ∧ t.au = .cleared ∧ t.tc = .cleared ∧ t.rt = .empty ∧ t.pm = .idle ∧
        t.ri = s.ri ∧ t.hp = s.hp.noticed [stationNoticeOf .joinFailed] ∧
        t.oq.entries = (if s.sc.state = .enrolling then [] else before ++ after) ∧
        (s.sc.state = .enrolling → t.lc = { x with rxFaults := 0, faultSenders := noStations, faultUnknown := false,
                                                   txFaults := 0 }) ∧
        (s.sc.state ≠ .enrolling → t.lc = x))

/-- The end of a request frame's attempt without acceptance, by the same three commands. In MEMBER a YIELD returns; the WITHDRAW of a
WITHDRAWING record returns, and that of a record granted meanwhile is removed with its mark, a YIELD deferred behind it placed; the CLAIM
of a CLAIMING record returns with its void counted, and at its sixteenth void is abandoned with CLAIM_FAILED; a CLAIM_CANCEL record ends
with its CLAIM removed and WITHDRAWN, at a lost arbitration and at any void, the sixteenth too. In DEPARTING the frame is removed and its
record keeps its state; that the withdraw-asked mark is then clear and no notice is placed is log entries 14 and 15 (R111, R117, R119,
R123, R150, R151, R154). Stated where the counts neither mute the station nor reach a fourth collision; a slot that empties, for a record of
host origin with one entry (R143), those of pin origin being PinRecordFollowed. -/
def Obligations.RequestAttemptEnds : Prop :=
  ∀ (s : State) (before after : List Entry) (e : Entry) (c : Instr) (voided : Bool) (x : LineController),
    s.attempts before e after → s.endsAttempt c voided x → (voting s.sc.state = true → ¬ x.mute) → e.discard = false →
    (∀ i : Tier, s.sc.state = .departing → ownerOf e.content = .slot i →
      (s.rt.slots[i] = none → exec c s = .next { s with oq := OutboundQueue.mk (before ++ after), lc := x }) ∧
      (∀ r, s.rt.slots[i] = some r →
        exec c s = .next { s with
          oq := OutboundQueue.mk (before ++ after), lc := x,
          rt := RequestTracker.mk (putAt s.rt.slots i (some { r with withdrawAsked := false })) })) ∧
    (s.sc.state = .member →
      (∀ l g why, e.content = .yield l g why →
        exec c s = .next { s with oq := OutboundQueue.mk (before ++ e.returned voided :: after), lc := x }) ∧
      (∀ l r, e.content = .withdraw l → recordFor s l = some r →
        (r.state = .withdrawing →
          exec c s = .next { s with oq := OutboundQueue.mk (before ++ e.returned voided :: after), lc := x }) ∧
        (r.state = .held ∨ r.state = .yielding →
          exec c s = .next { s with
            lc := x, rt := RequestTracker.mk (putAt s.rt.slots (tierOf l) (some
              { r with withdrawAsked := false, deferred := none })),
            oq := OutboundQueue.mk (before ++ after ++ r.deferred.toList.map fun why =>
              newEntry (.yield l (r.generation.getD 0) why)) })) ∧
      (∀ l m r, e.content = .claim l m → recordFor s l = some r →
        (r.state = .claiming → (voided = true → e.voids < 15) →
          exec c s = .next { s with oq := OutboundQueue.mk (before ++ e.returned voided :: after), lc := x }) ∧
        (r.state = .claiming → voided = true → 15 ≤ e.voids → r.origin = .host →
          (∀ y ∈ before ++ after, ownerOf y.content ≠ ownerOf e.content) →
          exec c s = .next { s with
            oq := OutboundQueue.mk (before ++ after), lc := x,
            rt := RequestTracker.mk (putAt s.rt.slots (tierOf l) none),
            hp := s.hp.noticed [{ withdrawnNotice l s with kind := .claimFailed }] }) ∧
        (r.state = .claimCancel → r.origin = .host → (∀ y ∈ before ++ after, ownerOf y.content ≠ ownerOf e.content) →
          exec c s = .next { s with
            oq := OutboundQueue.mk (before ++ after), lc := x,
            rt := RequestTracker.mk (putAt s.rt.slots (tierOf l) none),
            hp := s.hp.noticed [withdrawnNotice l s] })))

/-- A lost frame sends a receiver to SEEKING, hands nothing on, and counts a receive fault in the voting states, to the sender in its
arbitration cell if that passed its turn check and to the unknown sender otherwise; the count stays at 8, and faults of one sender alone
change nothing else (R169, R176, R177). The CRC register holds the CRC of the three cells read (R170; what the registers hold between events
is log entry 19). Stated where the counts do not mute the station; that is LineFaultsDrop. -/
def Obligations.FrameLostCountsFault : Prop :=
  ∀ (s : State) (arb kind length : Cell), s.inReset = false → s.lc.state = .receiving →
    (turnHolds length = false ∨ length.data.toNat > 50) →
    ∃ x : LineController, ((voting s.sc.state = true → ¬ x.mute) → exec (.frameLost [arb, kind, length]) s = .next { s with lc := x }) ∧
      x.state = .seeking ∧ x.sending = s.lc.sending ∧ x.collisions = s.lc.collisions ∧ x.txFaults = s.lc.txFaults ∧
      x.recessive = 0 ∧ x.cells = [arb, kind, length] ∧ x.crc = crcOf [arb.data, kind.data, length.data] ∧
      (voting s.sc.state = false →
        x.rxFaults = s.lc.rxFaults ∧ x.faultSenders = s.lc.faultSenders ∧ x.faultUnknown = s.lc.faultUnknown) ∧
      (voting s.sc.state = true →
        (turnHolds arb = true → s.lc.faulted (some (Fin.ofNat 32 arb.data.toNat)) x) ∧
        (turnHolds arb = false → s.lc.faulted none x))

/-- A voided frame. At a receiver it ends in CLOSING with the replica and every other block as they were; one that was clean here returns
the receive fault count to 0, and one that failed here advances it to its sender, up to 8, in the voting states. At its sender the entry
returns to QUEUED, with one more void for an abandonable kind and none for another; with no mismatch read back the collision and transmit
fault counts return to 0, and the replica does not change (R33, R37, R151, R172, R175 to R177). Stated where the counts do not mute the
station, which is LineFaultsDrop, and at the sender below the sixteenth void, for an entry without a discard mark that is no request
frame. -/
def Obligations.FrameVoidedAppliedByNone : Prop :=
  (∀ (s : State) (rd : Reading), s.inReset = false → s.lc.state = .receiving →
    (∀ f, receive rd = .clean f → ∃ t, exec (.frameVoided rd) s = .next t ∧ t = { s with lc := t.lc } ∧ t.lc.state = .closing ∧
      t.lc.txFaults = s.lc.txFaults ∧ t.lc.collisions = s.lc.collisions ∧
      (voting s.sc.state = true → t.lc.rxFaults = 0 ∧ t.lc.faultSenders = noStations ∧ t.lc.faultUnknown = false)) ∧
    (∀ m, receive rd = .failed m → ∃ x : LineController,
      ((voting s.sc.state = true → ¬ x.mute) → exec (.frameVoided rd) s = .next { s with lc := x }) ∧
      x.state = .closing ∧ x.sending = s.lc.sending ∧ x.txFaults = s.lc.txFaults ∧ x.collisions = s.lc.collisions ∧
      (voting s.sc.state = true → s.lc.faulted m x) ∧ (voting s.sc.state = false → x.rxFaults = s.lc.rxFaults))) ∧
  (∀ (s : State) (f : Frame) (before after : List Entry) (e : Entry), s.sends (readingOf f) f →
    s.oq.entries = before ++ e :: after → e.contending = true → e.discard = false → isRequest e.content = false →
    (∀ x ∈ before ++ after, x.contending = false) → (abandonable e.content = true → e.voids < 15) →
    (voting s.sc.state = true → ¬ ({ s.lc with txFaults := 0 } : LineController).mute) →
    ∃ t, exec (.frameVoided (readingOf f)) s = .next t ∧ t = { s with lc := t.lc, oq := t.oq } ∧
      t.oq.entries = before ++ { e with contending := false,
                                        voids := if abandonable e.content then e.voids + 1 else e.voids } :: after ∧
      t.lc.state = .closing ∧ t.lc.sending = none ∧ t.lc.collisions = 0 ∧
      t.lc.txFaults = (if voting s.sc.state then 0 else s.lc.txFaults))

/-- The line faults that drop a station. The eighth transmit fault in a row mutes it with LINE_MUTE, at an unconfirmed own start bit and at
an own frame voided with a transmit mismatch; so does an eighth or later receive fault in a row with two senders among them, the unknown
sender counting as one, at a frame lost at its length cell and at one that failed here and was voided. A fourth collision mismatch in a row
drops it with DUPLICATE_STATION where it is not muted first. In each case it goes to READY with its replica cleared and its line counts at
0; the owner of an own entry is told first, then the REVOKED notices stand in ascending slot order before the cause's (R94, R95, R107, R111,
R117, R124, R169, R172, R174 to R177). That the owner is told before the cause is log entry 11; an ENROL at its sixteenth void gives up the
join instead, with JOIN_FAILED, here at a fourth collision and else in StationAttemptEnds. That every record of pin origin has its pin
bound, and that a station without presence duties holds none, are premises; HoldsLawKept and StateLawKept are about them. That the collected
count and the marks are cleared by a drop is log entry 34. -/
def Obligations.LineFaultsDrop : Prop :=
  ∀ s : State, s.inReset = false → voting s.sc.state = true → s.recordsBound → (present s.sc.state = true ∨ s.rt = .empty) →
    (∀ before e after, s.attempts before e after → (e.content = .enrol → e.voids < 15) →
      (s.lc.state = .idle → 7 ≤ s.lc.txFaults →
        ∃ t, exec .unconfirmedStartBit s = .next t ∧ t.sc.state = .ready ∧ t.offBus ∧ t.lc.state = .idle ∧ t.lc.sending = none ∧
          t.lc.txFaults = 0 ∧ t.lc.rxFaults = 0 ∧ t.lc.collisions = 0 ∧
          t.hp = s.hp.noticed
            (s.voidNotices e ++ revokedNotices s.au.replica.busSeq s.rt ++ [stationNoticeOf .lineMute])) ∧
      (∀ f rd, s.lc.state = .sending → s.lc.sending = some f → mistransmitIn (frameCells f) rd = true → 7 ≤ s.lc.txFaults →
        ∃ t, exec (.frameVoided rd) s = .next t ∧ t.sc.state = .ready ∧ t.offBus ∧ t.lc.state = .closing ∧ t.lc.sending = none ∧
          t.lc.txFaults = 0 ∧ t.lc.rxFaults = 0 ∧ t.lc.collisions = 0 ∧
          t.hp = s.hp.noticed
            (s.voidNotices e ++ revokedNotices s.au.replica.busSeq s.rt ++ [stationNoticeOf .lineMute])) ∧
      (∀ f rd, s.lc.state = .sending → s.lc.sending = some f → s.lc.collisions = 3 → collisionIn (frameCells f) rd = true →
        (mistransmitIn (frameCells f) rd = true → s.lc.txFaults < 7) → ¬ ({ s.lc with txFaults := 0 } : LineController).mute →
        ∃ t, exec (.frameVoided rd) s = .next t ∧ t.sc.state = .ready ∧ t.offBus ∧ t.lc.state = .closing ∧ t.lc.sending = none ∧
          t.lc.txFaults = 0 ∧ t.lc.rxFaults = 0 ∧ t.lc.collisions = 0 ∧
          t.hp = s.hp.noticed
            (s.voidNotices e ++ revokedNotices s.au.replica.busSeq s.rt ++ [stationNoticeOf .duplicateStation]))) ∧
    (∀ before e after f rd, s.attempts before e after → e.content = .enrol → e.discard = false → 15 ≤ e.voids →
      s.sc.state = .enrolling → s.lc.state = .sending → s.lc.sending = some f → s.lc.collisions = 3 →
      collisionIn (frameCells f) rd = true →
      ∃ t, exec (.frameVoided rd) s = .next t ∧ t.sc.state = .ready ∧ t.offBus ∧ t.lc.state = .closing ∧ t.lc.sending = none ∧
        t.lc.txFaults = 0 ∧ t.lc.rxFaults = 0 ∧ t.lc.collisions = 0 ∧ t.hp = s.hp.noticed [stationNoticeOf .joinFailed]) ∧
    (∀ (arb kind length : Cell) (a b : Option Station), s.lc.state = .receiving → 7 ≤ s.lc.rxFaults →
      (turnHolds length = false ∨ length.data.toNat > 50) → a ≠ b → s.lc.faultedBy (faultSender arb) a →
      s.lc.faultedBy (faultSender arb) b →
      ∃ t, exec (.frameLost [arb, kind, length]) s = .next t ∧ t.sc.state = .ready ∧ t.offBus ∧ t.lc.rxFaults = 0 ∧
        t.lc.state = .seeking ∧ t.lc.txFaults = 0 ∧ t.lc.collisions = 0 ∧
        t.hp = s.hp.noticed (revokedNotices s.au.replica.busSeq s.rt ++ [stationNoticeOf .lineMute])) ∧
    (∀ (rd : Reading) (m a b : Option Station), s.lc.state = .receiving → 7 ≤ s.lc.rxFaults → receive rd = .failed m →
      a ≠ b → s.lc.faultedBy m a → s.lc.faultedBy m b →
      ∃ t, exec (.frameVoided rd) s = .next t ∧ t.sc.state = .ready ∧ t.offBus ∧ t.lc.rxFaults = 0 ∧
        t.lc.state = .closing ∧ t.lc.txFaults = 0 ∧ t.lc.collisions = 0 ∧
        t.hp = s.hp.noticed (revokedNotices s.au.replica.busSeq s.rt ++ [stationNoticeOf .lineMute]))

/-! ### Cells, frames and payloads -/

/-- A frame read undisturbed is the frame that was sent: the ten kinds, every class, sender, flags, bus sequence and payload of the size
its kind requires come back from the cells with their turn bits and CRC (R161, R162, R168, R170, R202, R205). -/
def Obligations.FrameReadsBack : Prop :=
  ∀ f : Frame, lengthMatches f.kind f.payload = true → receive (readingOf f) = .clean f

/-- What a feeder composes a joiner reads: a page 0 carries its round number, feeder, members in ascending order, round list and pending
list; page n from 1 to 16 carries the round number, its own number and the images of locks 4(n-1) to 4(n-1)+3 in order; an entry image
carries its lock entry whole, and passes the check of R24 exactly when the entry keeps the laws of the claim table against the roster
(R23, R24, R82, R99, R204, R205). -/
def Obligations.PagesReadBack : Prop :=
  (∀ r : Replica, r.transfer.nextPage = 0 → r.roster[r.transfer.feeder] = true → r.transfer.roundList.length ≤ 4 →
    r.transfer.roundList.Nodup → r.transfer.pendingList.length ≤ 4 → r.transfer.pendingList.Nodup →
    lengthMatches .page (composePage r) = true ∧
    readPageZero (composePage r)
      = some { round := r.transfer.round, feeder := r.transfer.feeder, members := stationsOf r.roster,
               roundList := r.transfer.roundList, pendingList := r.transfer.pendingList }) ∧
  (∀ r : Replica, 1 ≤ r.transfer.nextPage → r.transfer.nextPage ≤ 16 →
    lengthMatches .page (composePage r) = true ∧ byteAt (composePage r) 0 = r.transfer.round ∧
    (byteAt (composePage r) 1).toNat = r.transfer.nextPage ∧
    ∀ (j : Fin 4) (l : Lock), l.val = 4 * (r.transfer.nextPage - 1) + j.val →
      imageAt (composePage r) j.val = imageOf r.table[l]) ∧
  (∀ (e : LockEntry) (roster : StationSet), e.waiters.length ≤ 8 →
    (imageOf e).length = 12 ∧ entryOfImage (imageOf e) = e ∧ imagePasses roster (imageOf e) = e.lawful roster)

/-! ### Accepted frames at a voting receiver -/

/-- A CLAIM applied at a receiver: the entry takes the first row of R11 whose condition holds, an uncollected entry is not changed, the bus
sequence advances, the streak is cleared, and the sender's silence timer restarts; if the sender is another station, no lock of this
station is concerned (R8, R11 to R14, R37, R39, R57, R85). -/
def Obligations.ClaimFrameApplied : Prop :=
  ∀ (s : State) (rd : Reading) (f : Frame), s.receives rd f → f.kind = .claim → s.inStep f →
    ∃ t, exec (.claimFrame rd) s = .next t ∧ s.followed t rd f ∧ (f.sender ≠ s.station → s.sameLocks t) ∧
      (s.tc.uncollected[lockField f.payload] = true → t.au = .after s.au.replica) ∧
      (s.tc.uncollected[lockField f.payload] = false → ∃ e,
        t.au = .after { s.au.replica with table := putAt s.au.replica.table (lockField f.payload) e } ∧
        (s.au.replica.table[lockField f.payload].holder = none →
          e = { s.au.replica.table[lockField f.payload] with
                holder := some f.sender, generation := s.au.replica.table[lockField f.payload].generation + 1 }) ∧
        (∀ h, s.au.replica.table[lockField f.payload].holder = some h →
          ((h = f.sender ∨ f.sender ∈ s.au.replica.table[lockField f.payload].waiters ∨ modeField f.payload = .tryOnly ∨
              8 ≤ s.au.replica.table[lockField f.payload].waiters.length) →
            e = s.au.replica.table[lockField f.payload]) ∧
          (h ≠ f.sender → f.sender ∉ s.au.replica.table[lockField f.payload].waiters → modeField f.payload = .wait →
            s.au.replica.table[lockField f.payload].waiters.length < 8 →
            e = { s.au.replica.table[lockField f.payload] with
                  waiters := s.au.replica.table[lockField f.payload].waiters ++ [f.sender] })))

/-- A YIELD applied at a receiver: from the holder with the entry's generation it releases the lock, to the head waiter with the next
generation or to none; any other changes no entry; the reason does not matter (R15, R16, R17). On an uncollected lock at a COLLECTING
station it consumes its number and changes nothing else, and no outcome follows (R8, R85). Where the lock is handed to this station, whose
record is WAITING or WITHDRAWING, the record is HELD with the new generation and GRANTED or TOO_LATE is placed; its request frame leaves the
queue unless it is CONTENDING. In MEMBER its hold timer starts, and the guards of its lines if the station is not fenced; a record whose pin
is deasserted is YIELDING at once instead, with its YIELD queued (R64, R108, R113, R120, R130, R198). -/
def Obligations.YieldFrameApplied : Prop :=
  ∀ (s : State) (rd : Reading) (f : Frame), s.receives rd f → f.kind = .yield → s.inStep f →
    (s.tc.uncollected[lockField f.payload] = true →
      ∃ t, exec (.yieldFrame rd) s = .next t ∧ s.followed t rd f ∧ s.sameLocks t ∧ t.au = .after s.au.replica) ∧
    (s.tc.uncollected[lockField f.payload] = false →
      ∃ t e, exec (.yieldFrame rd) s = .next t ∧ s.followed t rd f ∧
        t.au = .after { s.au.replica with table := putAt s.au.replica.table (lockField f.payload) e } ∧
        (f.sender ≠ s.station → s.au.replica.table[lockField f.payload].waiters.head? ≠ some s.station → s.sameLocks t) ∧
        (¬ (s.au.replica.table[lockField f.payload].holder = some f.sender ∧
            s.au.replica.table[lockField f.payload].generation = generationField f.payload) →
          e = s.au.replica.table[lockField f.payload]) ∧
        (s.au.replica.table[lockField f.payload].holder = some f.sender →
          s.au.replica.table[lockField f.payload].generation = generationField f.payload →
          (s.au.replica.table[lockField f.payload].waiters = [] →
            e = { s.au.replica.table[lockField f.payload] with holder := none }) ∧
          (∀ w rest, s.au.replica.table[lockField f.payload].waiters = w :: rest →
            e = { holder := some w, generation := generationField f.payload + 1, waiters := rest } ∧
            (∀ r, w = s.station → f.sender ≠ s.station → recordFor s (lockField f.payload) = some r → s.awaits r →
              t.rt.slots = putAt s.rt.slots (tierOf (lockField f.payload)) (some (s.grantTaken r (generationField f.payload + 1))) ∧
              s.grantFollows t (lockField f.payload) r (generationField f.payload + 1) ∧
              (s.pinFell r = false → s.guardsStarted t fun l => l = lockField f.payload) ∧ t.ri = s.ri ∧
              t.hp = s.hp.noticed
                [lockNoticeOf r.grantKind (lockField f.payload) (some (generationField f.payload + 1)) .none s]))))

/-- A WITHDRAW applied at a receiver takes its sender off the waiter list, wherever it stands, with the others in their order; a sender
that does not wait changes nothing; the holder and the generation stay (R18, R19). On an uncollected lock at a COLLECTING station it consumes
its number and changes nothing else, and no outcome follows (R8, R85). -/
def Obligations.WithdrawFrameApplied : Prop :=
  ∀ (s : State) (rd : Reading) (f : Frame), s.receives rd f → f.kind = .withdraw → s.inStep f →
    (s.tc.uncollected[lockField f.payload] = true →
      ∃ t, exec (.withdrawFrame rd) s = .next t ∧ s.followed t rd f ∧ s.sameLocks t ∧ t.au = .after s.au.replica) ∧
    (s.tc.uncollected[lockField f.payload] = false →
      ∃ t e, exec (.withdrawFrame rd) s = .next t ∧ s.followed t rd f ∧ (f.sender ≠ s.station → s.sameLocks t) ∧
        t.au = .after { s.au.replica with table := putAt s.au.replica.table (lockField f.payload) e } ∧
        (f.sender ∉ s.au.replica.table[lockField f.payload].waiters → e = s.au.replica.table[lockField f.payload]) ∧
        (∀ ahead behind, s.au.replica.table[lockField f.payload].waiters = ahead ++ f.sender :: behind → f.sender ∉ ahead →
          e = { s.au.replica.table[lockField f.payload] with waiters := ahead ++ behind }))

/-- An EVICT applied. At a receiver a target that is no member changes only the bus sequence; a member target leaves the roster, the table
and the transfer lists, and a round it fed restarts or dissolves. A station with presence duties discards the target's silence timer and
takes the locks handed to it, with a notice for each in ascending lock order, then PEER_LEFT, and in MEMBER its quorum state follows the
count, with the fence notices and its effect on the guards. A COLLECTING station goes back to WAIT_ROUND when the target fed its round, and
an ENROLLING one to LISTEN when no member is left. The own EVICT, in MEMBER and in DEPARTING, removes its target likewise, after CONTACT has
left the fence set, with the two changes of the set reported one by one (log entry 12); it leaves the queue, and the next eviction decision
is taken (R20, R22, R43, R49, R58, R62, R66, R67, R70, R88, R90, R113). That the guards of a fenced station are stopped is a premise there;
it is an invariant. That the collected count and the marks are cleared where a joining station loses its replica is log entry 34. -/
def Obligations.EvictFrameApplied : Prop :=
  (∀ (s : State) (rd : Reading) (f : Frame), s.receives rd f → f.kind = .evict → s.inStep f →
    ∃ t, exec (.evictFrame rd) s = .next t ∧
      (s.au.replica.roster[targetField f.payload] = false →
        t.au = .after s.au.replica ∧ s.followed t rd f ∧ s.sameLocks t) ∧
      (s.au.replica.roster[targetField f.payload] = true → targetField f.payload ≠ s.station → present s.sc.state = true →
        t.au.streakCount = 0 ∧ t.au.streakSenders = noStations ∧
        Replica.without s.tc.uncollected (targetField f.payload) s.au.replica t.au.replica ∧
        t.sc = s.sc ∧ t.tc = s.tc ∧ t.lc = s.lc.heard rd.cells ∧ t.pm.silence[targetField f.payload] = none ∧
        (∀ m : Station, m ≠ targetField f.payload →
          t.pm.silence[m] = if m = f.sender then (s.pm.silence[m]).map fun _ => 0 else s.pm.silence[m]) ∧
        t.pm.contact = s.pm.contact ∧ t.pm.ownContact = s.pm.ownContact ∧ (s.sc.state = .member → s.quorumFollows t) ∧
        ((∀ l r, s.handed (targetField f.payload) l = true → recordFor s l = some r → s.awaits r) →
          s.handsOver t (targetField f.payload) ∧
          t.hp = s.hp.noticed (s.grantNotices (targetField f.payload) ++ peerLeftNotice (targetField f.payload) .evicted s
            :: fenceReport (fenceSet s) (fenceSet t) (s.au.replica.busSeq + 1)))) ∧
      (s.au.replica.roster[targetField f.payload] = true → s.rt = .empty → s.joinFollows t (targetField f.payload) rd f)) ∧
  (∀ (s : State) (rd : Reading) (f : Frame), s.sendsInStep rd f → f.kind = .evict → targetField f.payload ≠ s.station →
    (∀ e ∈ s.oq.entries, ownerOf e.content = .evict → e.contending = true) →
    ∃ t, exec (.evictFrame rd) s = .next t ∧ t.sc = s.sc ∧ t.pm.ownContact = 0 ∧ t.pm.contact = false ∧
      t.au.replica.busSeq = s.au.replica.busSeq + 1 ∧ t.au.replica.roster[targetField f.payload] = false ∧
      (s.au.replica.roster[targetField f.payload] = true → (s.sc.state = .member → s.quorumFollows t) ∧
        Replica.without s.tc.uncollected (targetField f.payload) s.au.replica t.au.replica ∧
        ((s.pm.contact = true → s.gl = .stopped) →
          (∀ l r, s.handed (targetField f.payload) l = true → recordFor s l = some r → s.awaits r) →
          s.handsOver t (targetField f.payload) ∧
          t.hp = s.hp.noticed (s.grantNotices (targetField f.payload) ++ peerLeftNotice (targetField f.payload) .evicted s
            :: (s.contactLeft ++ fenceReport (false, s.pm.quorum) (fenceSet t) (s.au.replica.busSeq + 1))))) ∧
      (s.au.replica.roster[targetField f.payload] = false → t.rt = s.rt ∧ t.pm.quorum = s.pm.quorum ∧ s.guardsMoved t ∧
        t.hp = s.hp.noticed s.contactLeft) ∧
      t.pm.silence = (if s.au.replica.roster[targetField f.payload] then putAt s.pm.silence (targetField f.payload) none
                      else s.pm.silence) ∧
      (∀ (m : Station) (a : Nat), t.pm.silence[m] = some a → 5 * beaconPeriod s ≤ a →
        (∀ (k : Station) (b : Nat), k < m → t.pm.silence[k] = some b → b < 5 * beaconPeriod s) →
        t.au.replica.roster[m] = true →
        newEntry (.evict m) ∈ t.oq.entries ∧ ∀ e ∈ t.oq.entries, ∀ k, e.content = .evict k → k = m) ∧
      ((∀ (m : Station) a, t.pm.silence[m] = some a → a < 5 * beaconPeriod s) →
        ∀ e ∈ t.oq.entries, ownerOf e.content ≠ .evict))

/-- A station in MEMBER or DEPARTING that applies an EVICT naming itself is dropped with OUSTED: LISTEN with auto-rejoin set in MEMBER,
otherwise READY, with its replica, hold list and presence state cleared and its lines inactive. The notices are those of a fence change of
the smaller roster, then REVOKED for each lock it held or waited for, in ascending slot order, then OUSTED; none is a PEER_LEFT for itself
(R62, R69, R71, R94, R95, R97, R124, R125, R198). The law of the claim table is a premise; it is an invariant. That the collected count and
the marks are cleared by a drop is log entry 34. -/
def Obligations.EvictOusts : Prop :=
  ∀ (s : State) (rd : Reading) (f : Frame), s.receives rd f → f.kind = .evict → s.inStep f → s.tableLawful = true →
    targetField f.payload = s.station → s.au.replica.roster[s.station] = true → present s.sc.state = true →
    ∃ t, exec (.evictFrame rd) s = .next t ∧ t.offBus ∧
      t.hp = s.hp.noticed (
        (if s.sc.state = .member then
          fenceReport (fenceSet s)
            (s.pm.contact, decide (countOf (dropStation s.au.replica.roster s.station) < quorumOf s))
            (s.au.replica.busSeq + 1)
         else [])
        ++ revokedNotices (s.au.replica.busSeq + 1) s.rt ++ [stationNoticeOf .ousted]) ∧
      t.sc.state = (if autoRejoin s = true ∧ s.sc.state = .member then .listen else .ready) ∧ t.sc.config = s.sc.config ∧
      (∀ n, grantActive t n = false)

/-- A DEPART of another member removes its sender as an EVICT removes its target, with cause DEPARTED in PEER_LEFT: the locks handed to this
station, the quorum state of a MEMBER, and a COLLECTING or ENROLLING station likewise. The own DEPART of a DEPARTING station takes it to
READY with everything cleared, the REVOKED notices in ascending slot order and DEPARTED last. In ENROLLING the own DEPART of a stale
membership, applied or an outsider by membership, clears the mark and queues a new ENROL, or leaves for LISTEN when no member is left (R20,
R43, R66, R67, R70, R88, R90, R91, R93, R113, R124). The laws of the table and of the station states are premises where REVOKED is listed;
they are invariants. That the collected count and the marks are cleared with the replica is log entry 34. -/
def Obligations.DepartFrameApplied : Prop :=
  ∀ (s : State) (rd : Reading) (f : Frame), f.kind = .depart → f.busSeq = s.au.replica.busSeq →
    (s.receives rd f → s.au.replica.roster[f.sender] = true →
      ∃ t, exec (.departFrame rd) s = .next t ∧
        (f.sender ≠ s.station → present s.sc.state = true →
          t.au.streakCount = 0 ∧ t.au.streakSenders = noStations ∧
          Replica.without s.tc.uncollected f.sender s.au.replica t.au.replica ∧ t.sc = s.sc ∧ t.tc = s.tc ∧
          t.lc = s.lc.heard rd.cells ∧ t.pm.silence = putAt s.pm.silence f.sender none ∧ t.pm.contact = s.pm.contact ∧
          t.pm.ownContact = s.pm.ownContact ∧ (s.sc.state = .member → s.quorumFollows t) ∧
          ((∀ l r, s.handed f.sender l = true → recordFor s l = some r → s.awaits r) →
            s.handsOver t f.sender ∧
            t.hp = s.hp.noticed (s.grantNotices f.sender ++ peerLeftNotice f.sender .departed s
              :: fenceReport (fenceSet s) (fenceSet t) (s.au.replica.busSeq + 1)))) ∧
        (s.rt = .empty → s.joinFollows t f.sender rd f)) ∧
    (s.sends rd f → s.sc.state = .departing → s.au.replica.roster[f.sender] = true →
      ∃ t, exec (.departFrame rd) s = .next t ∧ t.sc = s.sc.inState .ready ∧ t.offBus ∧
        s.lastNotice t (stationNoticeOf .departed) ∧
        (f.sender = s.station → s.tableLawful = true → s.stateLawful = true →
          t.hp = s.hp.noticed (revokedNotices (s.au.replica.busSeq + 1) s.rt ++ [stationNoticeOf .departed]))) ∧
    (s.sends rd f → s.sc.state = .enrolling → s.sc.staleMark = true → s.rt = .empty →
      ∃ t, exec (.departFrame rd) s = .next t ∧ t.hp = s.hp ∧ t.ri = s.ri ∧ t.rt = .empty ∧
        (∀ m : Station, m ≠ f.sender → s.au.replica.roster[m] = true →
          t.sc = { s.sc with staleMark := false } ∧ newEntry .enrol ∈ t.oq.entries ∧
          (s.au.replica.roster[f.sender] = true →
            Replica.without s.tc.uncollected f.sender s.au.replica t.au.replica) ∧
          (s.au.replica.roster[f.sender] = false → t.au = s.au)) ∧
        (s.au.replica.roster[f.sender] = true → (∀ m : Station, s.au.replica.roster[m] = true → m = f.sender) →
          t.sc = s.sc.inState .listen ∧ t.offBus))

/-- An applied BEACON advances the bus sequence and changes nothing else in the replica; it restarts the sender's silence timer, or the
own-contact timer if it is this station's own; its profile is not compared (R41). An own one takes CONTACT off the fence set; if that
empties the set, UNFENCED is placed and the guards of the HELD locks start (R53, R61, R62, R64, R130). -/
def Obligations.BeaconFrameApplied : Prop :=
  ∀ (s : State) (rd : Reading) (f : Frame), f.kind = .beacon → s.inStep f → voting s.sc.state = true →
    (s.receives rd f →
      ∃ t, exec (.beaconFrame rd) s = .next t ∧ t.au = .after s.au.replica ∧ s.followed t rd f ∧ s.sameLocks t) ∧
    (s.sends rd f → (s.sc.state = .collecting → s.tc.collected ≤ 15) →
      ∃ t, exec (.beaconFrame rd) s = .next t ∧
        t.au = { s.au with replica := { s.au.replica with busSeq := s.au.replica.busSeq + 1 } } ∧ t.sc = s.sc ∧
        t.tc = s.tc ∧ t.rt = s.rt ∧ t.ri = s.ri ∧ (∀ e ∈ t.oq.entries, e.contending = false) ∧
        (present s.sc.state = true → t.pm.ownContact = 0 ∧ t.pm.contact = false ∧ t.pm.silence = s.pm.silence) ∧
        (s.sc.state = .member → s.guardsMoved t ∧ t.pm.quorum = s.pm.quorum ∧
          t.hp = s.hp.noticed (fenceReport (fenceSet s) (false, s.pm.quorum) (s.au.replica.busSeq + 1))))

/-- A SYNC_ASK is applied whatever its bus sequence: a different profile, a station already pending or a full list changes nothing; with
a round running the sender joins the pending list; with none, it starts a round fed by the lowest-numbered member (R34, R45, R46). The
own SYNC_ASK accepted in ASKING takes the station to WAIT_ROUND (R81). -/
def Obligations.SyncAskFrameApplied : Prop :=
  (∀ (s : State) (rd : Reading) (f : Frame), s.receives rd f → f.kind = .syncAsk →
    ∃ t x, exec (.syncAskFrame rd) s = .next t ∧ s.followed t rd f ∧ s.sameLocks t ∧
      t.au = .after { s.au.replica with transfer := x } ∧
      ((sameProfile s f.payload = false ∨ f.sender ∈ s.au.replica.transfer.pendingList ∨
          4 ≤ s.au.replica.transfer.pendingList.length) → x = s.au.replica.transfer) ∧
      (sameProfile s f.payload = true → f.sender ∉ s.au.replica.transfer.pendingList →
        s.au.replica.transfer.pendingList.length < 4 →
        (s.au.replica.transfer.running = true →
          x = { s.au.replica.transfer with pendingList := s.au.replica.transfer.pendingList ++ [f.sender] }) ∧
        (s.au.replica.transfer.running = false → ∀ m : Station, s.au.replica.roster[m] = true →
          (∀ k : Station, k < m → s.au.replica.roster[k] = false) →
          x = { running := true, feeder := m, round := s.au.replica.transfer.round + 1, nextPage := 0,
                roundList := s.au.replica.transfer.pendingList ++ [f.sender], pendingList := [] } ∧
          (m = s.station → present s.sc.state = true → ∃ e ∈ t.oq.entries, e.content = .page)))) ∧
  (∀ (s : State) (rd : Reading) (f : Frame), s.sends rd f → f.kind = .syncAsk → s.sc.state = .asking →
    ∃ t, exec (.syncAskFrame rd) s = .next t ∧ t.sc = s.sc.inState .waitRound ∧ t.au = .cleared ∧
      t.oq.entries = s.oq.entries.filter (fun e => !e.contending) ∧ t.hp = s.hp ∧ t.ri = s.ri)

/-- A PAGE. At a receiver one that does not qualify advances only the bus sequence, in COLLECTING too, where the collected count, the marks
and the round timer stay; at one that is not COLLECTING a qualifying one advances next page, and page 16 ends the round, IDLE with none
pending and else with a new round for the pending stations (R46, R47, R48, R86). The feeder's own PAGE, in MEMBER and in DEPARTING, leaves
the queue, and the next PAGE entry is placed while the duty holds; with the duty ended none is there (R98, R100, R152). -/
def Obligations.PageFrameApplied : Prop :=
  (∀ (s : State) (rd : Reading) (f : Frame), s.receives rd f → f.kind = .page → s.inStep f →
    (s.sc.state = .collecting → ¬ s.qualifies f) →
    ∃ t x, exec (.pageFrame rd) s = .next t ∧ s.followed t rd f ∧ s.sameLocks t ∧
      t.au = .after { s.au.replica with transfer := x } ∧ s.pageTaken f x) ∧
  (∀ (s : State) (rd : Reading) (f : Frame), s.sendsInStep rd f → f.kind = .page →
    (∀ e ∈ s.oq.entries, ownerOf e.content = .page → e.contending = true) →
    ∃ t x, exec (.pageFrame rd) s = .next t ∧ t.sc = s.sc ∧ t.rt = s.rt ∧
      t.au = { s.au with replica := { s.au.replica with busSeq := s.au.replica.busSeq + 1, transfer := x } } ∧
      s.pageTaken f x ∧
      (∀ e ∈ t.oq.entries, ownerOf e.content = .page → e = newEntry .page) ∧
      (newEntry .page ∈ t.oq.entries ↔ x.running = true ∧ x.feeder = s.station))

/-- A qualifying lock page at a COLLECTING station: when its four images pass, they replace locks 4(n-1) to 4(n-1)+3, which are marked
collected, the collected count advances and the round timer restarts, and the transfer record takes the page as at any member; the sixteenth
takes the station to ENROLLING with an ENROL queued; when one image fails, the station is dropped with DESYNCED, after a REVOKED for each
lock of its hold list, which R103 keeps empty here (R24, R47, R48, R86, R87, R94). That a drop clears the collected count and the marks is
log entry 34. -/
def Obligations.PageFrameCollected : Prop :=
  ∀ (s : State) (rd : Reading) (f : Frame), s.receives rd f → f.kind = .page → s.inStep f → s.sc.state = .collecting →
    s.qualifies f → 1 ≤ s.au.replica.transfer.nextPage →
    ((∀ j : Fin 4, imagePasses s.au.replica.roster (imageAt f.payload j.val) = true) →
      ∃ t, exec (.pageFrame rd) s = .next t ∧ t.au.replica.busSeq = s.au.replica.busSeq + 1 ∧
        t.au.replica.roster = s.au.replica.roster ∧ s.pageTaken f t.au.replica.transfer ∧
        t.tc.collected = s.tc.collected + 1 ∧ t.hp = s.hp ∧
        (∀ l : Lock,
          (∀ j : Fin 4, l.val = 4 * (s.au.replica.transfer.nextPage - 1) + j.val →
            t.au.replica.table[l] = entryOfImage (imageAt f.payload j.val) ∧ t.tc.uncollected[l] = false) ∧
          ((∀ j : Fin 4, l.val ≠ 4 * (s.au.replica.transfer.nextPage - 1) + j.val) →
            t.au.replica.table[l] = s.au.replica.table[l] ∧ t.tc.uncollected[l] = s.tc.uncollected[l])) ∧
        (s.tc.collected < 15 → t.sc = { s.sc with roundTimer := 0 }) ∧
        (s.tc.collected = 15 → t.sc = s.sc.inState .enrolling ∧ newEntry .enrol ∈ t.oq.entries)) ∧
    ((∃ j : Fin 4, imagePasses s.au.replica.roster (imageAt f.payload j.val) = false) →
      ∃ t, exec (.pageFrame rd) s = .next t ∧ t.offBus ∧
        t.hp = s.hp.noticed (revokedNotices (s.au.replica.busSeq + 1) s.rt ++ [stationNoticeOf .desynced]) ∧
        t.sc.state = if autoRejoin s then .listen else .ready)

/-- An ENROL in step: a member's changes nothing but the bus sequence; a non-member's with an equal profile adds it to the roster, and a
station with presence duties starts its silence timer and places PEER_JOINED, in MEMBER with its quorum state following the count, its fence
notice and its effect on the guards; one with another profile is refused (R42, R57, R62, R64, R66, R67, R70). The own ENROL of an ENROLLING
station takes it to MEMBER with JOINED, the presence state of R72 with FENCED for QUORUM if it starts fenced, and its request inputs
examined; or, if the roster names it, sets the stale-membership mark and queues a DEPART (R72, R90, R91, R136, R139). -/
def Obligations.EnrolFrameApplied : Prop :=
  ∀ (s : State) (rd : Reading) (f : Frame), f.kind = .enrol → f.busSeq = s.au.replica.busSeq →
    (s.receives rd f →
      ∃ t, exec (.enrolFrame rd) s = .next t ∧ t.sc = s.sc ∧ t.tc = s.tc ∧ t.lc = s.lc.heard rd.cells ∧ t.rt = s.rt ∧
        t.ri = s.ri ∧
        ((s.au.replica.roster[f.sender] = true ∨ sameProfile s f.payload = false) →
          t.au = .after s.au.replica ∧ s.followed t rd f ∧ s.sameLocks t) ∧
        (s.au.replica.roster[f.sender] = false → sameProfile s f.payload = true →
          t.au = .after { s.au.replica with roster := putAt s.au.replica.roster f.sender true } ∧
          (present s.sc.state = true → f.sender ≠ s.station →
            t.pm.silence = putAt s.pm.silence f.sender (some 0) ∧ t.pm.contact = s.pm.contact ∧
            t.pm.ownContact = s.pm.ownContact ∧ (s.sc.state = .member → s.quorumFollows t) ∧ s.guardsMoved t ∧
            t.hp = s.hp.noticed ({ kind := .peerJoined, lock := none, station := some f.sender, generation := none,
                                   qualifier := .none, busSeq := s.au.replica.busSeq + 1 }
              :: fenceReport (fenceSet s) (fenceSet t) (s.au.replica.busSeq + 1))))) ∧
    (s.sends rd f → f.sender = s.station → s.sc.state = .enrolling →
      (s.au.replica.roster[s.station] = false → sameProfile s f.payload = true →
        ∃ t, exec (.enrolFrame rd) s = .next t ∧ t.sc = s.sc.inState .member ∧
          t.au.replica = { s.au.replica with
            busSeq := s.au.replica.busSeq + 1, roster := putAt s.au.replica.roster s.station true } ∧
          t.pm.ownContact = 0 ∧ t.pm.beaconAge = none ∧ t.pm.contact = false ∧ t.pm.stranding = none ∧
          t.pm.quorum = decide (countOf t.au.replica.roster < quorumOf s) ∧ t.pm.attained = !t.pm.quorum ∧
          (∀ m : Station,
            t.pm.silence[m] = if m ≠ s.station ∧ s.au.replica.roster[m] = true then some 0 else none) ∧
          (s.rt = .empty → s.pinsDistinct →
            s.pinsExamined t ∧
            t.hp = s.hp.noticed ({ stationNoticeOf .joined with busSeq := s.au.replica.busSeq + 1 }
              :: fenceReport (false, false) (false, t.pm.quorum) (s.au.replica.busSeq + 1)
              ++ s.pinRefusals (s.au.replica.busSeq + 1)))) ∧
      (s.au.replica.roster[s.station] = true →
        ∃ t, exec (.enrolFrame rd) s = .next t ∧ t.sc = { s.sc with staleMark := true } ∧ t.hp = s.hp ∧
          newEntry .depart ∈ t.oq.entries ∧
          t.au.replica = { s.au.replica with busSeq := s.au.replica.busSeq + 1 }))

/-- A FOUND is ignored at a voting station, whoever sent it: nothing changes but the line, and the station's care for its own queue (R34,
R44). The own FOUND accepted in FOUNDING founds the bus: MEMBER, bus sequence 1, a roster of this station alone, FOUNDED, the presence state
of R72 with FENCED for QUORUM if it starts fenced, and the request inputs examined (R72, R79, R136, R139). -/
def Obligations.FoundFrameApplied : Prop :=
  (∀ (s : State) (rd : Reading) (f : Frame), s.receives rd f → f.kind = .found →
    ∃ t, exec (.foundFrame rd) s = .next t ∧ t = { s with lc := s.lc.heard rd.cells, oq := t.oq } ∧ s.sameLocks t) ∧
  (∀ (s : State) (rd : Reading) (f : Frame), s.sends rd f → f.kind = .found → s.sc.state = .founding →
    ∃ t, exec (.foundFrame rd) s = .next t ∧ t.sc = s.sc.inState .member ∧
      t.au.replica = { Replica.cleared with busSeq := 1, roster := t.au.replica.roster } ∧
      (∀ m : Station, t.au.replica.roster[m] = decide (m = s.station)) ∧
      t.pm = { PresenceMonitor.idle with quorum := decide (1 < quorumOf s), attained := decide (quorumOf s ≤ 1) } ∧
      (s.rt = .empty → s.pinsDistinct →
        s.pinsExamined t ∧
        t.hp = s.hp.noticed ({ stationNoticeOf .founded with busSeq := 1 }
          :: fenceReport (false, false) (false, t.pm.quorum) 1 ++ s.pinRefusals 1)))

/-- A frame that is not applied: an outsider by sequence advances the mismatch streak, which drops the station with DESYNCED when it stands
at 3 with two senders, or with every other member of the roster, after REVOKED notices in ascending slot order; an outsider by membership
changes nothing (R34, R36, R39, R40, R94, R95, R124). That the collected count and the marks are cleared by a drop is log entry 34. -/
def Obligations.OutsiderFramesSetAside : Prop :=
  ∀ (s : State) (rd : Reading) (f : Frame), s.receives rd f → f.kind ≠ .found → f.kind ≠ .syncAsk →
    ∃ t, exec (frameCommand f.kind rd) s = .next t ∧
      (f.busSeq = s.au.replica.busSeq → f.kind ≠ .enrol → s.au.replica.roster[f.sender] = false →
        t = { s with lc := s.lc.heard rd.cells, oq := t.oq } ∧ s.sameLocks t) ∧
      (f.busSeq ≠ s.au.replica.busSeq →
        (¬ s.desyncs f →
          t = { s with lc := s.lc.heard rd.cells, oq := t.oq, au := t.au } ∧ s.sameLocks t ∧
          t.au.replica = s.au.replica ∧ t.au.streakCount = min 3 (s.au.streakCount + 1) ∧
          ∀ m : Station, t.au.streakSenders[m] = (decide (m = f.sender) || s.au.streakSenders[m])) ∧
        (s.desyncs f → t.offBus ∧
          t.hp = s.hp.noticed (revokedNotices s.au.replica.busSeq s.rt ++ [stationNoticeOf .desynced]) ∧
          t.sc.state = if autoRejoin s = true ∧ s.sc.state ≠ .departing then .listen else .ready))

/-! ### Own frames accepted -/

/-- The own CLAIM applied, taken on its record, in MEMBER and in DEPARTING. Granted or already held, the record is HELD with the generation
of the entry after the application; in MEMBER its hold timer starts, the guards of its lines start if the station is not fenced, and a
record whose pin is deasserted is YIELDING at once instead; in DEPARTING no timer, no guard and no line starts. Queued or already waiting,
it is WAITING, or WITHDRAWING if it was being withdrawn, with a WITHDRAW queued in MEMBER and none in DEPARTING, where the mark is then
clear (log entry 14); refused, its slot is empty; each with its notice. The frame restarts own contact and takes CONTACT off the fence set;
where that empties it UNFENCED follows and the guards of HELD locks start (R53, R62, R64, R108, R113, R114, R120, R121, R123, R130, R198). A
refused record of pin origin in MEMBER is PinRecordFollowed. -/
def Obligations.OwnClaimTaken : Prop :=
  ∀ (s : State) (rd : Reading) (f : Frame) (l : Lock) (r : HoldRecord), s.sendsInStep rd f → f.kind = .claim →
    lockField f.payload = l → s.tc.uncollected[l] = false → recordFor s l = some r → s.bound r →
    ∃ t, exec (.claimFrame rd) s = .next t ∧ t.sc = s.sc ∧ (r.origin = .host → t.ri = s.ri) ∧
      t.pm.ownContact = 0 ∧ t.pm.contact = false ∧ t.pm.quorum = s.pm.quorum ∧ s.placesNone t ∧
      (s.sc.state = .departing → t.gl = s.gl ∧ ∀ n, grantActive t n = false) ∧
      (∀ i : Tier, i ≠ tierOf l → t.rt.slots[i] = s.rt.slots[i]) ∧
      (∀ g, (s.au.replica.table[l].holder = none ∧ g = s.au.replica.table[l].generation + 1 ∨
             s.au.replica.table[l].holder = some s.station ∧ g = s.au.replica.table[l].generation) →
        (r.state = .claiming ∨ r.state = .claimCancel) →
        t.rt.slots[tierOf l] = some (s.grantTaken r g) ∧ s.grantFollows t l r g ∧
        (s.pinFell r = false → s.guardsStarted t fun k => k = l) ∧ t.ri = s.ri ∧
        t.hp = s.hp.noticed (lockNoticeOf r.grantKind l (some g) .none s :: s.contactLeft)) ∧
      (∀ h, s.au.replica.table[l].holder = some h → h ≠ s.station → s.guardsMoved t ∧
        ((s.station ∈ s.au.replica.table[l].waiters ∨
            modeField f.payload = .wait ∧ s.au.replica.table[l].waiters.length < 8) →
          (r.state = .claiming → s.pinFell r = false →
            t.rt.slots[tierOf l] = some { r with state := .waiting } ∧ t.ri = s.ri ∧
            t.hp = s.hp.noticed (lockNoticeOf .queued l (some s.au.replica.table[l].generation) .none s
              :: s.contactLeft)) ∧
          (r.state = .claimCancel → t.ri = s.ri ∧ t.hp = s.hp.noticed s.contactLeft ∧
            (s.sc.state = .member →
              t.rt.slots[tierOf l] = some { r with state := .withdrawing } ∧ newEntry (.withdraw l) ∈ t.oq.entries) ∧
            (s.sc.state = .departing →
              t.rt.slots[tierOf l] = some { r with state := .withdrawing, withdrawAsked := false }))) ∧
        (s.station ∉ s.au.replica.table[l].waiters → r.origin = .host ∨ s.sc.state = .departing →
          ∀ k, (modeField f.payload = .tryOnly ∧ k = NoticeKind.refusedBusy ∨
                modeField f.payload = .wait ∧ 8 ≤ s.au.replica.table[l].waiters.length ∧ k = .refusedFull) →
          (r.state = .claiming → t.rt.slots[tierOf l] = none ∧
            (∀ p, r.origin = .req p → k = .refusedFull →
              t.ri.inputs = putAt s.ri.inputs p { s.ri.inputs[p] with ignored := true }) ∧
            t.hp = s.hp.noticed (lockNoticeOf k l (some s.au.replica.table[l].generation) .none s :: s.contactLeft)) ∧
          (r.state = .claimCancel → t.rt.slots[tierOf l] = none ∧ t.ri = s.ri ∧
            t.hp = s.hp.noticed (lockNoticeOf .withdrawn l none .none s :: s.contactLeft))))

/-- The own YIELD applied, taken on its YIELDING record: the slot empties, with YIELDED for a release and no notice for an expiry, and with
YIELDED marked stale where the YIELD was STALE. The own WITHDRAW applied: a WITHDRAWING record ends with WITHDRAWN; one that was granted
meanwhile loses its withdraw-asked mark, and in MEMBER a YIELD deferred behind it is placed. The frame restarts own contact and takes
CONTACT off the fence set; where that empties it UNFENCED follows and the guards of HELD locks start. In DEPARTING a record of pin origin is
taken as one of host origin, no guard moves, and no frame is placed for a record that has no YIELD deferred (LEAVE leaves none deferred); in
MEMBER the slot of a record of pin origin that empties is PinRecordFollowed (R53, R62, R64, R115, R116, R117, R119, R123, R198). -/
def Obligations.OwnReleaseTaken : Prop :=
  ∀ (s : State) (rd : Reading) (f : Frame) (l : Lock) (r : HoldRecord), s.sendsInStep rd f → lockField f.payload = l →
    s.tc.uncollected[l] = false → recordFor s l = some r →
    (f.kind = .yield → r.state = .yielding → r.origin = .host ∨ s.sc.state = .departing →
      s.au.replica.table[l].waiters.head? ≠ some s.station →
      ∃ t, exec (.yieldFrame rd) s = .next t ∧ t.sc = s.sc ∧ t.ri = s.ri ∧ t.rt.slots = putAt s.rt.slots (tierOf l) none ∧
        t.pm.ownContact = 0 ∧ t.pm.contact = false ∧ t.pm.quorum = s.pm.quorum ∧ s.guardsMoved t ∧ s.placesNone t ∧
        (s.au.replica.table[l].holder = some s.station → s.au.replica.table[l].generation = generationField f.payload →
          (reasonField f.flags = .released →
            t.hp = s.hp.noticed (lockNoticeOf .yielded l (some (generationField f.payload)) (.stale false) s
              :: s.contactLeft)) ∧
          (reasonField f.flags = .expired → t.hp = s.hp.noticed s.contactLeft)) ∧
        (¬ (s.au.replica.table[l].holder = some s.station ∧
            s.au.replica.table[l].generation = generationField f.payload) →
          t.hp = s.hp.noticed (lockNoticeOf .yielded l (some s.au.replica.table[l].generation) (.stale true) s
            :: s.contactLeft))) ∧
    (f.kind = .withdraw →
      ∃ t, exec (.withdrawFrame rd) s = .next t ∧ t.sc = s.sc ∧ t.pm.ownContact = 0 ∧ t.pm.contact = false ∧
        t.pm.quorum = s.pm.quorum ∧ (r.deferred = none → s.placesNone t) ∧
        (r.state = .withdrawing → r.origin = .host ∨ s.sc.state = .departing →
          t.rt.slots = putAt s.rt.slots (tierOf l) none ∧ t.ri = s.ri ∧
          s.guardsMoved t ∧ t.hp = s.hp.noticed (lockNoticeOf .withdrawn l none .none s :: s.contactLeft)) ∧
        (r.state = .held ∨ r.state = .yielding → r.withdrawAsked = true → s.station ∉ s.au.replica.table[l].waiters →
          t.rt.slots = putAt s.rt.slots (tierOf l) (some { r with withdrawAsked := false, deferred := none }) ∧ t.ri = s.ri ∧
          s.guardsMoved t ∧ t.hp = s.hp.noticed s.contactLeft ∧
          (∀ why, s.sc.state = .member → r.deferred = some why →
            newEntry (.yield l (r.generation.getD 0) why) ∈ t.oq.entries)))

/-- The changes of a record of pin origin in MEMBER at which its pin decides. A CLAIMING one refused with REFUSED_FULL, or whose CLAIM is
abandoned at its sixteenth void, empties its slot and puts the pin into ignore, so that it does not claim again. A CLAIM_CANCEL one that is
granted, and a WITHDRAWING one granted by another station's YIELD, EVICT or DEPART, place TOO_LATE and are yielded at once if the pin is still
deasserted. A slot that empties at the end of a YIELD, at the own WITHDRAW of a WITHDRAWING record, or at the refusal or the end of a
CLAIM_CANCEL record's CLAIM, claims anew under an asserted pin that is not ignored if the tier and pending rules allow, and PIN_REFUSED
follows its notice otherwise; under a deasserted or ignored pin it stays empty (R107, R108, R111, R113 to R117, R132, R136). -/
def Obligations.PinRecordFollowed : Prop :=
  ∀ (s : State) (p : Pin) (l : Lock) (r : HoldRecord), s.sc.state = .member → requestBinding s p = some l →
    recordFor s l = some r → r.origin = .req p → s.tc.uncollected[l] = false →
    (∀ rd f h, s.sendsInStep rd f → f.kind = .claim → lockField f.payload = l → s.au.replica.table[l].holder = some h →
      h ≠ s.station → s.station ∉ s.au.replica.table[l].waiters →
      (r.state = .claiming → modeField f.payload = .wait → 8 ≤ s.au.replica.table[l].waiters.length →
        ∃ t, exec (.claimFrame rd) s = .next t ∧ t.rt.slots = putAt s.rt.slots (tierOf l) none ∧
          t.ri.inputs = putAt s.ri.inputs p { s.ri.inputs[p] with ignored := true } ∧
          t.hp = s.hp.noticed (lockNoticeOf .refusedFull l (some s.au.replica.table[l].generation) .none s
            :: s.contactLeft)) ∧
      (r.state = .claimCancel → (modeField f.payload = .tryOnly ∨ 8 ≤ s.au.replica.table[l].waiters.length) →
        ∃ t, exec (.claimFrame rd) s = .next t ∧
          s.pinReclaims t p l (s.au.replica.busSeq + 1) [lockNoticeOf .withdrawn l none .none s] s.contactLeft)) ∧
    (∀ rd f, s.sendsInStep rd f → f.kind = .claim → lockField f.payload = l → r.state = .claimCancel →
      s.au.replica.table[l].holder = none → s.ri.inputs[p].stable = false →
      ∃ t, exec (.claimFrame rd) s = .next t ∧
        t.rt.slots[tierOf l] = some { r with state := .yielding, withdrawAsked := false, holdTimer := none,
                                             generation := some (s.au.replica.table[l].generation + 1) } ∧
        newEntry (.yield l (s.au.replica.table[l].generation + 1) .released) ∈ t.oq.entries ∧
        (∀ n : GrantLine, grantBinding s n = some l → grantActive t n = false) ∧
        t.hp = s.hp.noticed (lockNoticeOf .tooLate l (some (s.au.replica.table[l].generation + 1)) .none s
          :: s.contactLeft)) ∧
    (∀ rd f h, s.receives rd f → s.inStep f → s.recordsBound → r.state = .withdrawing → s.ri.inputs[p].stable = false →
      slotContends .withdraw (tierOf l) s = false → h ≠ s.station → s.au.replica.table[l].holder = some h →
      s.au.replica.table[l].waiters.head? = some s.station →
      (f.kind = .yield ∧ f.sender = h ∧ lockField f.payload = l ∧
          s.au.replica.table[l].generation = generationField f.payload ∨
        f.kind = .evict ∧ targetField f.payload = h ∧ s.au.replica.roster[h] = true ∨ f.kind = .depart ∧ f.sender = h) →
      ∃ t, exec (frameCommand f.kind rd) s = .next t ∧
        t.rt.slots[tierOf l] = some { r with state := .yielding, withdrawAsked := false, holdTimer := none,
                                             generation := some (s.au.replica.table[l].generation + 1) } ∧
        newEntry (.yield l (s.au.replica.table[l].generation + 1) .released) ∈ t.oq.entries ∧
        (∀ n : GrantLine, grantBinding s n = some l → grantActive t n = false) ∧
        ∃ first rest, t.hp = s.hp.noticed (first ++
          lockNoticeOf .tooLate l (some (s.au.replica.table[l].generation + 1)) .none s :: rest)) ∧
    (∀ rd f, s.sendsInStep rd f → lockField f.payload = l →
      (f.kind = .yield → r.state = .yielding → s.au.replica.table[l].waiters.head? ≠ some s.station →
        ∃ t, exec (.yieldFrame rd) s = .next t ∧ t.sc = s.sc ∧ t.pm.ownContact = 0 ∧ t.pm.contact = false ∧
          t.pm.quorum = s.pm.quorum ∧ s.guardsMoved t ∧
          (s.au.replica.table[l].holder = some s.station → s.au.replica.table[l].generation = generationField f.payload →
            s.pinReclaims t p l (s.au.replica.busSeq + 1)
              (if reasonField f.flags = .released then
                [lockNoticeOf .yielded l (some (generationField f.payload)) (.stale false) s] else []) s.contactLeft) ∧
          (¬ (s.au.replica.table[l].holder = some s.station ∧
              s.au.replica.table[l].generation = generationField f.payload) →
            s.pinReclaims t p l (s.au.replica.busSeq + 1)
              [lockNoticeOf .yielded l (some s.au.replica.table[l].generation) (.stale true) s] s.contactLeft)) ∧
      (f.kind = .withdraw → r.state = .withdrawing →
        ∃ t, exec (.withdrawFrame rd) s = .next t ∧ s.guardsMoved t ∧
          s.pinReclaims t p l (s.au.replica.busSeq + 1) [lockNoticeOf .withdrawn l none .none s] s.contactLeft)) ∧
    (∀ before after e c voided x, s.attempts before e after → s.endsAttempt c voided x → ¬ x.mute → e.discard = false →
      (∃ m, e.content = .claim l m) →
      (r.state = .claiming → voided = true → 15 ≤ e.voids → (∀ y ∈ before ++ after, ownerOf y.content ≠ ownerOf e.content) →
        exec c s = .next { s with
          oq := OutboundQueue.mk (before ++ after), lc := x,
          rt := RequestTracker.mk (putAt s.rt.slots (tierOf l) none),
          ri := RequestInputs.mk (putAt s.ri.inputs p { s.ri.inputs[p] with ignored := true }),
          hp := s.hp.noticed [{ withdrawnNotice l s with kind := .claimFailed }] }) ∧
      (r.state = .claimCancel → ∃ t, exec c s = .next t ∧ t.lc = x ∧
        s.pinReclaims t p l s.au.replica.busSeq [withdrawnNotice l s] []))

/-! ### Agreement of replicas -/

/-- Two voting stations that are not COLLECTING, hold equal replicas and have equal profiles, and are handed the same accepted frame, one as
a receiver and the other as a receiver or as its sender, hold equal replicas afterwards, unless one of them has left the voting states
(R7, R50). -/
def Obligations.ReplicasAgree : Prop :=
  ∀ (s t s' t' : State) (f : Frame) (rds rdt : Reading),
    s.receives rds f → (t.receives rdt f ∨ t.sends rdt f ∧ voting t.sc.state = true) →
    s.sc.state ≠ .collecting → t.sc.state ≠ .collecting → s.collectedAll → t.collectedAll →
    s.sc.config.isSome = true → t.sc.config.isSome = true → beaconPeriod s = beaconPeriod t → quorumOf s = quorumOf t →
    s.au.replica = t.au.replica →
    exec (frameCommand f.kind rds) s = .next s' → exec (frameCommand f.kind rdt) t = .next t' →
    voting s'.sc.state = true → voting t'.sc.state = true → s'.au.replica = t'.au.replica

/-! ### Accepted frames at a station that does not vote -/

/-- An accepted frame heard in LISTEN takes the station to ASKING with a SYNC_ASK queued, but for another station's FOUND of a different
profile, which takes it to READY with JOIN_REFUSED; a FOUND does the same in FOUNDING, where the QUEUED own FOUND is removed; in ASKING,
UNCONFIGURED and READY another station's frame changes nothing (R32, R78, R80, R81, R198). -/
def Obligations.JoiningFramesHeard : Prop :=
  ∀ (s : State) (rd : Reading) (f : Frame), s.hears rd f → voting s.sc.state = false → s.sc.state ≠ .waitRound →
    ∃ t, exec (frameCommand f.kind rd) s = .next t ∧ t.lc = s.lc.overheard rd.cells ∧
      (s.sc.state = .listen → (f.kind ≠ .found ∨ sameProfile s f.payload = true) →
        t.sc = s.sc.inState .asking ∧ t.oq.entries = s.oq.entries ++ [newEntry .syncAsk] ∧ t.hp = s.hp ∧ t.ri = s.ri) ∧
      (s.sc.state = .founding → f.kind = .found → sameProfile s f.payload = true →
        t.sc = s.sc.inState .asking ∧ t.hp = s.hp ∧ t.ri = s.ri ∧
        t.oq.entries = s.oq.entries.filter (fun e => e.contending || e.content != .found) ++ [newEntry .syncAsk]) ∧
      (s.sc.state = .listen ∨ s.sc.state = .founding → f.kind = .found → sameProfile s f.payload = false →
        t.sc = s.sc.inState .ready ∧ t.ri = s.ri ∧
        t.hp = s.hp.noticed [{ stationNoticeOf .joinRefused with station := some f.sender }]) ∧
      (s.sc.state = .founding ∧ f.kind ≠ .found ∨ s.sc.state = .asking ∨ s.sc.state = .unconfigured ∨
          s.sc.state = .ready → t = { s with lc := t.lc })

/-- A page 0 heard in WAIT_ROUND: its round number, the number 0, its feeder, and its members, round list and pending list, each behind its
count. It is well formed with 1 to 32 members, none twice, the feeder among them, and at most 4 stations in each list, none twice in the same
list; one that is not is disregarded. One whose round list names the station takes it to COLLECTING with the replica of page 0, every lock
entry cleared and uncollected, and the ask count at 0; one whose pending list alone names it restarts the round timer; any other frame changes
nothing but the line (R30, R82, R84, R204). Which station a byte above 31 names, and whether a page with one is read, is open (log entry 8). -/
def Obligations.PageZeroHeard : Prop :=
  ∃ (name : Byte → Station) (read : List Byte → Bool), (∀ m : Station, name (stationByte m) = m) ∧
  ∀ (s : State) (rd : Reading) (f : Frame), s.hears rd f → s.sc.state = .waitRound →
    ∃ t, exec (frameCommand f.kind rd) s = .next t ∧
      ((f.kind ≠ .page ∨ byteAt f.payload 1 ≠ 0) → t = { s with lc := s.lc.overheard rd.cells }) ∧
      (f.kind = .page → byteAt f.payload 1 = 0 → ∃ (round feeder : Byte) (members rounds pendings : List Byte),
        f.payload = [round, 0, feeder, BitVec.ofNat 8 members.length] ++ members ++ [BitVec.ofNat 8 rounds.length] ++ rounds
          ++ [BitVec.ofNat 8 pendings.length] ++ pendings) ∧
      (∀ (round feeder : Byte) (members rounds pendings : List Byte), f.kind = .page →
        f.payload = [round, 0, feeder, BitVec.ofNat 8 members.length] ++ members ++ [BitVec.ofNat 8 rounds.length] ++ rounds
          ++ [BitVec.ofNat 8 pendings.length] ++ pendings →
        ∀ wellFormed : Prop,
          (wellFormed ↔ ((∀ b ∈ feeder :: members ++ rounds ++ pendings, b.toNat ≤ 31) ∨ read f.payload = true) ∧
            1 ≤ members.length ∧ members.length ≤ 32 ∧ (members.map name).Nodup ∧ name feeder ∈ members.map name ∧
            rounds.length ≤ 4 ∧ (rounds.map name).Nodup ∧ pendings.length ≤ 4 ∧ (pendings.map name).Nodup) →
        (¬ wellFormed → t = { s with lc := s.lc.overheard rd.cells }) ∧
        (wellFormed →
          (s.station ∉ rounds.map name → s.station ∉ pendings.map name → t = { s with lc := s.lc.overheard rd.cells }) ∧
          (s.station ∉ rounds.map name → s.station ∈ pendings.map name →
            t = { s with lc := s.lc.overheard rd.cells, sc := { s.sc with roundTimer := 0 } }) ∧
          (s.station ∈ rounds.map name →
            t.sc = { s.sc.inState .collecting with askCount := 0 } ∧ t.au.streakCount = 0 ∧
            t.au.replica.busSeq = f.busSeq + 1 ∧
            (∀ m : Station, t.au.replica.roster[m] = decide (m ∈ members.map name)) ∧
            (∀ l : Lock, t.au.replica.table[l] = .cleared ∧ t.tc.uncollected[l] = true) ∧ t.tc.collected = 0 ∧
            t.au.replica.transfer = { running := true, feeder := name feeder, round := round, nextPage := 1,
                                      roundList := rounds.map name, pendingList := pendings.map name } ∧
            t.hp = s.hp ∧ t.ri = s.ri)))

/-! ### Timers -/

/-- When the own-contact timer reaches P and no BEACON is in the queue, a BEACON is placed at class 7 with age 0; with one there, nothing
is placed (R54). When the age of a queued BEACON reaches P its class becomes 1 (R56). When a silence timer reaches 5P and no EVICT is in
the queue, an EVICT of the lowest-numbered member at or above the limit is placed at class 0; with one there, none is placed (R58). That
the timer of a limit event then stands at its limit at least is the model's choice (log entry 3). -/
def Obligations.PresenceTimers : Prop :=
  ∀ s : State,
    (present s.sc.state = true → (∀ e ∈ s.oq.entries, e.content ≠ .beacon) →
      exec .ownContactReachesP s
        = .next { s with pm := { s.pm with ownContact := max s.pm.ownContact (beaconPeriod s), beaconAge := some 0 },
                         oq := OutboundQueue.mk (s.oq.entries ++
                           [{ content := .beacon, cls := 7, contending := false, voids := 0, discard := false }]) }) ∧
    (present s.sc.state = true → (∃ e ∈ s.oq.entries, e.content = .beacon) →
      exec .ownContactReachesP s
        = .next { s with pm := { s.pm with ownContact := max s.pm.ownContact (beaconPeriod s) } }) ∧
    (∀ (before after : List Entry) (e : Entry) (a : Nat), s.oq.entries = before ++ e :: after → e.content = .beacon →
      (∀ x ∈ before ++ after, x.content ≠ .beacon) → s.pm.beaconAge = some a →
      exec .beaconPromoted s
        = .next { s with pm := { s.pm with beaconAge := some (max a (beaconPeriod s)) },
                         oq := OutboundQueue.mk (before ++ { e with cls := 1 } :: after) }) ∧
    (∀ (m : Station) (a : Nat), present s.sc.state = true → s.pm.silence[m] = some a →
      ∃ t, exec (.absenceLimit m) s = .next t ∧ t = { s with pm := t.pm, oq := t.oq } ∧
        t.pm = { s.pm with silence := putAt s.pm.silence m (some (max a (5 * beaconPeriod s))) } ∧
        ((∃ e ∈ s.oq.entries, ∃ x, e.content = .evict x) → t.oq = s.oq) ∧
        ((∀ e ∈ s.oq.entries, ∀ x, e.content ≠ .evict x) →
          ∃ (x : Station) (b : Nat), t.pm.silence[x] = some b ∧ 5 * beaconPeriod s ≤ b ∧
            (∀ (k : Station) (c : Nat), k < x → t.pm.silence[k] = some c → c < 5 * beaconPeriod s) ∧
            t.oq.entries = s.oq.entries ++
              [{ content := .evict x, cls := 0, contending := false, voids := 0, discard := false }]))

/-- The fence limit of a MEMBER: CONTACT enters the set with its FENCED notice, the guards stop, and every line is inactive; fencing changes
no other state. The stranding limit drops a MEMBER with STRANDED, after REVOKED for each lock it held or waited for, in ascending slot order
(R61, R62, R63, R68, R94, R95, R124, R125, R130, R198). That the own-contact timer then stands at 3P at least is the model's choice (log
entry 3). That the collected count and the marks are cleared by a drop is log entry 34. -/
def Obligations.FenceAndStranding : Prop :=
  ∀ s : State, s.sc.state = .member →
    (s.pm.contact = false →
      ∃ t, exec .fenceLimit s = .next t ∧ t = { s with pm := t.pm, gl := t.gl, hp := t.hp } ∧
        t.pm = { s.pm with ownContact := max s.pm.ownContact (3 * beaconPeriod s), contact := true } ∧
        (∀ n, grantActive t n = false) ∧ t.gl = (if s.pm.quorum then s.gl else .stopped) ∧
        t.hp = s.hp.noticed [fenceNoticeOf .fenced .contact s.au.replica.busSeq]) ∧
    (s.pm.stranding.isSome = true →
      ∃ t, exec .stranding s = .next t ∧ t.offBus ∧
        t.hp = s.hp.noticed (revokedNotices s.au.replica.busSeq s.rt ++ [stationNoticeOf .stranded]) ∧
        t.sc.state = (if autoRejoin s then .listen else .ready) ∧ t.sc.config = s.sc.config)

/-- The founding timer at 8P takes LISTEN to FOUNDING with a FOUND queued, the JOINING place being free. The round timer at 20P in
WAIT_ROUND and COLLECTING advances the ask count and takes the station to LISTEN with its replica cleared, or at the fourth time to READY
with JOIN_FAILED (R77, R83, R89, R143, R198). That a founding timer waits for a discarded attempt to leave the JOINING place is log entry 4.
That the collected count and the marks are cleared at a round timeout is log entry 34. -/
def Obligations.JoinTimers : Prop :=
  ∀ s : State,
    (s.sc.state = .listen → (∀ e ∈ s.oq.entries, ownerOf e.content ≠ .joining) →
      ∃ t, exec .foundingWait s = .next t ∧ t.sc = s.sc.inState .founding ∧
        t.oq.entries = s.oq.entries ++ [newEntry .found] ∧ t.hp = s.hp ∧ t.ri = s.ri ∧ t.lc = s.lc) ∧
    (s.sc.state = .waitRound ∨ s.sc.state = .collecting →
      ∃ t, exec .roundTimeout s = .next t ∧ t.au = .cleared ∧ t.tc = .cleared ∧ t.ri = s.ri ∧
        (s.sc.askCount < 3 →
          t.sc = { s.sc.inState .listen with askCount := s.sc.askCount + 1 } ∧ t.hp = s.hp) ∧
        (s.sc.askCount = 3 →
          t.sc = { s.sc.inState .ready with askCount := 4 } ∧ t.hp = s.hp.noticed [stationNoticeOf .joinFailed]))

/-- A hold timer at its limit makes every line of the lock inactive, moves the HELD record to YIELDING, places a YIELD with its generation
and reason EXPIRED at class 2, or defers it behind a WITHDRAW, and places EXPIRED (R119, R122, R132, R198). -/
def Obligations.HoldExpires : Prop :=
  ∀ (s : State) (i : Tier) (r : HoldRecord), s.sc.state = .member → s.rt.slots[i] = some r → tierOf r.lock = i →
    r.state = .held → r.holdTimer.isSome = true →
    ∃ t, exec (.holdExpiry i) s = .next t ∧ t = { s with gl := t.gl, rt := t.rt, oq := t.oq, hp := t.hp } ∧
      (∀ n : GrantLine, grantBinding s n = some r.lock → grantActive t n = false ∧ t.gl.guards[n] = .stopped) ∧
      (∀ n : GrantLine, grantBinding s n ≠ some r.lock → t.gl.guards[n] = s.gl.guards[n]) ∧
      t.hp = s.hp.noticed
        [{ kind := .expired, lock := some r.lock, station := none, generation := r.generation, qualifier := .none,
           busSeq := s.au.replica.busSeq }] ∧
      (r.withdrawAsked = false →
        t.rt.slots = putAt s.rt.slots i (some { r with state := .yielding, holdTimer := none }) ∧
        t.oq.entries = s.oq.entries ++
          [{ content := .yield r.lock (r.generation.getD 0) .expired, cls := 2, contending := false, voids := 0,
             discard := false }]) ∧
      (r.withdrawAsked = true →
        t.rt.slots = putAt s.rt.slots i (some { r with state := .yielding, holdTimer := none, deferred := some .expired }) ∧
        t.oq = s.oq)

/-- A running guard at the guard time has elapsed, and with it those of the other lines bound to the same lock, so that they are active
together; a line is then active exactly when the station is an unfenced MEMBER and the record of its lock is HELD (R128, R129, R130). -/
def Obligations.GuardElapses : Prop :=
  ∀ (s : State) (n : GrantLine) (a : Nat), s.gl.guards[n] = .running a →
    ∃ t, exec (.guardElapsed n) s = .next t ∧ t = { s with gl := t.gl } ∧
      (∀ k : GrantLine,
        (grantBinding s k ≠ grantBinding s n → t.gl.guards[k] = s.gl.guards[k]) ∧
        (grantBinding s k = grantBinding s n → s.gl.guards[k] = .stopped → t.gl.guards[k] = .stopped) ∧
        (grantBinding s k = grantBinding s n → s.gl.guards[k] ≠ .stopped → t.gl.guards[k] = .elapsed ∧
          (grantActive t k = true ↔ s.sc.state = .member ∧ s.pm.contact = false ∧ s.pm.quorum = false ∧
            ∃ l r, grantBinding s n = some l ∧ s.rt.slots[tierOf l] = some r ∧ r.lock = l ∧ r.state = .held)))

/-! ### Request inputs -/

/-- A raw level starts the debounce timer when it differs from the stable level and stops it when it returns. At 2 ms the stable level
takes the raw level, and a deassertion clears the ignore mark. In MEMBER, an asserted bound pin with no record claims its lock in WAIT
mode with its hold limit, or is refused by the tier or pending rule with PIN_REFUSED and ignored. A deasserted one yields a HELD record,
deferred while the withdraw-asked mark is set, and withdraws a WAITING or CLAIMING one; a CLAIM_CANCEL, WITHDRAWING or YIELDING record is left
alone (R107, R108, R110, R119, R135, R136, R137, R198). -/
def Obligations.PinLevelsFollowed : Prop :=
  ∀ (s : State) (p : Pin),
    (∀ level : Bool,
      (s.ri.inputs[p].raw = level → exec (.rawLevelChange p level) s = .next s) ∧
      (s.ri.inputs[p].raw ≠ level →
        exec (.rawLevelChange p level) s
          = .next { s with ri := RequestInputs.mk (putAt s.ri.inputs p
              { s.ri.inputs[p] with
                raw := level,
                debounce := if s.inReset = true ∨ level = s.ri.inputs[p].stable then none else some 0 }) })) ∧
    (s.ri.inputs[p].debounce.isSome = true → ∀ i : RequestInput,
      i = { raw := s.ri.inputs[p].raw, stable := s.ri.inputs[p].raw, debounce := none,
            ignored := s.ri.inputs[p].raw && s.ri.inputs[p].ignored } →
      ((s.sc.state ≠ .member ∨ requestBinding s p = none) →
        exec (.stableLevelChange p) s = .next { s with ri := RequestInputs.mk (putAt s.ri.inputs p i) }) ∧
      (∀ l : Lock, s.sc.state = .member → requestBinding s p = some l →
        (i.stable = true → recordFor s l = none → i.ignored = false →
          ((∀ (u : Tier) (r : HoldRecord), s.rt.slots[u] = some r → u < tierOf l ∧ isPending r = false) →
            exec (.stableLevelChange p) s
              = .next { s with
                  ri := RequestInputs.mk (putAt s.ri.inputs p i),
                  rt := RequestTracker.mk (putAt s.rt.slots (tierOf l) (some (s.pinRecord p l))),
                  oq := OutboundQueue.mk (s.oq.entries ++ [newEntry (.claim l .wait)]) }) ∧
          ((∃ (u : Tier) (r : HoldRecord), s.rt.slots[u] = some r ∧ (tierOf l ≤ u ∨ isPending r = true)) →
            exec (.stableLevelChange p) s
              = .next { s with
                  ri := RequestInputs.mk (putAt s.ri.inputs p { i with ignored := true }),
                  hp := s.hp.noticed [{ withdrawnNotice l s with kind := .pinRefused }] })) ∧
        ((i.stable = true → (recordFor s l).isSome = true ∨ i.ignored = true) →
          (i.stable = false → recordFor s l = none) →
          exec (.stableLevelChange p) s = .next { s with ri := RequestInputs.mk (putAt s.ri.inputs p i) }) ∧
        (∀ r, i.stable = false → recordFor s l = some r →
          (r.state = .held →
            ∃ t, exec (.stableLevelChange p) s = .next t ∧
              t = { s with ri := RequestInputs.mk (putAt s.ri.inputs p i), rt := t.rt, oq := t.oq, gl := t.gl } ∧
              (∀ n : GrantLine, grantBinding s n = some l → grantActive t n = false ∧ t.gl.guards[n] = .stopped) ∧
              (r.withdrawAsked = false →
                t.rt.slots = putAt s.rt.slots (tierOf l) (some { r with state := .yielding, holdTimer := none }) ∧
                t.oq.entries = s.oq.entries ++ [newEntry (.yield l (r.generation.getD 0) .released)]) ∧
              (r.withdrawAsked = true → t.oq = s.oq ∧
                t.rt.slots = putAt s.rt.slots (tierOf l) (some
                  { r with state := .yielding, holdTimer := none, deferred := some .released }))) ∧
          (r.state = .waiting →
            exec (.stableLevelChange p) s
              = .next { s with
                  ri := RequestInputs.mk (putAt s.ri.inputs p i),
                  rt := RequestTracker.mk (putAt s.rt.slots (tierOf l) (some
                    { r with state := .withdrawing, withdrawAsked := true })),
                  oq := OutboundQueue.mk (s.oq.entries ++ [newEntry (.withdraw l)]) }) ∧
          (r.state = .claiming → slotContends .claim (tierOf l) s = true →
            exec (.stableLevelChange p) s
              = .next { s with
                  ri := RequestInputs.mk (putAt s.ri.inputs p i),
                  rt := RequestTracker.mk (putAt s.rt.slots (tierOf l) (some
                    { r with state := .claimCancel, withdrawAsked := true })) }) ∧
          (r.state = .claiming → slotContends .claim (tierOf l) s = false →
            exec (.stableLevelChange p) s
              = .next { s with
                  ri := RequestInputs.mk (putAt s.ri.inputs p i),
                  rt := RequestTracker.mk (putAt s.rt.slots (tierOf l) none),
                  oq := OutboundQueue.mk (s.oq.entries.filter fun e =>
                    e.contending || ownerOf e.content != .slot (tierOf l)),
                  hp := s.hp.noticed [withdrawnNotice l s] }) ∧
          (r.state = .claimCancel ∨ r.state = .withdrawing ∨ r.state = .yielding →
            exec (.stableLevelChange p) s = .next { s with ri := RequestInputs.mk (putAt s.ri.inputs p i) }))))

/-! ### What every step keeps -/

/-- The state after reset is safe: every law of Safety holds, and no record is there whose pin is not bound to its lock (R2, R28, R30, R73,
R74, R102, R105, R125, R130, R143, R179, R200). That no entry is marked uncollected there is the model's choice (log entry 34). -/
def Obligations.ResetIsSafe : Prop := State.reset.safe = true ∧ State.reset.recordsBound

/-- Every step keeps the law of the claim table (R2, R3, R4): a holder is a member and no waiter, waiters are at most 8 distinct members,
and a free lock has none. -/
def Obligations.TableLawKept : Prop := ∀ s t : State, s.tableLawful = true → step s = .next t → t.tableLawful = true

/-- Every step keeps the law of the hold list (R102, R104): records stand in their tiers, and a pending record is above every other. It keeps
each record of pin origin at a lock to which its pin is bound (R106, R107), under the law of the station states, itself an invariant. -/
def Obligations.HoldsLawKept : Prop :=
  ∀ s t : State, step s = .next t →
    (s.holdsLawful = true → t.holdsLawful = true) ∧ (s.stateLawful = true → s.recordsBound → t.recordsBound)

/-- Every step keeps the law of the station states (R30, R39, R52, R61, R66, R67, R73, R74, R103): outside the states that keep it, the
replica, the presence state, the hold list, the fence causes, the guards, the join timers and the marks are clear. -/
def Obligations.StateLawKept : Prop := ∀ s t : State, s.stateLawful = true → step s = .next t → t.stateLawful = true

/-- Every step keeps the law of the collection: in COLLECTING the transfer record is RUNNING, with n lock pages collected, n at most 15, its next
page is n + 1, and the entries marked uncollected are those of locks 4n to 63 (R6, R47, R84 to R86, R88); outside COLLECTING no entry is marked.
From ENROLLING on that is R87, by which every entry is then collected; in the states without a replica, after a reset, a drop or any other
clearing of it (R6, R30), and from there at a founding, that the marks are clear is the model's choice (log entry 34). -/
def Obligations.CollectionLawKept : Prop :=
  ∀ s t : State, s.collectionLawful = true → step s = .next t → t.collectionLawful = true

/-- Every step keeps the law of the attempt under way (R33, R149, R163): one entry at most is CONTENDING, its frame is filled in and is
that entry's, with this station's number and, in the voting states, the bus sequence held; and the line is SENDING, or IDLE until the start
bit is confirmed (the model's choice: log entry 28). -/
def Obligations.AttemptLawKept : Prop :=
  ∀ s t : State, s.attemptLawful = true → step s = .next t → t.attemptLawful = true

/-- Every step keeps the law of the outbound queue (R143): at most one entry for each owner, 12 in all, each agreeing with the record or the
state that placed it, and a YIELD deferred only behind a WITHDRAW (R102, R111, R119, R123, R155). The laws of the attempt, of the station
states and of the hold list are premises; they are invariants themselves. That a record moved by an outcome cancels a request frame of it
that is still QUEUED is the model's, for the irregular histories of R14 (log entries 26 and 33). -/
def Obligations.QueueLawKept : Prop :=
  ∀ s t : State, s.attemptLawful = true → s.stateLawful = true → s.holdsLawful = true → s.queueLawful = true →
    step s = .next t → t.queueLawful = true

/-- Every step keeps the law of the guards (R128, R129, R130): only an unfenced MEMBER's HELD lock has a guard that is not STOPPED, so no
grant line is active otherwise, and the lines bound to one lock have one guard value. The laws of the station states and of the hold list are
premises; they are invariants themselves. -/
def Obligations.GuardsLawKept : Prop :=
  ∀ s t : State, s.stateLawful = true → s.holdsLawful = true → s.guardsLawful = true → step s = .next t →
    t.guardsLawful = true

/-- Every step from a safe state keeps the law R105: in MEMBER and DEPARTING the claim table names this station holder of a lock exactly when
its record is HELD or YIELDING, with the record's generation, and waiter exactly when it is WAITING or WITHDRAWING. Left out is a frame
received under this station's own number, the irregular history of R14; the other laws of a safe state are invariants themselves. -/
def Obligations.HoldsAgreeKept : Prop :=
  ∀ s t : State, s.safe = true → s.numberAlone → step s = .next t → t.holdsAgree = true

/-- Every step keeps the law of the transfer record, no station twice in a list, and the ranges of the counts and the notice queue (R28,
R39, R74, R175, R176, R177, R198). -/
def Obligations.RangesKept : Prop :=
  ∀ s t : State, s.transferLawful = true → s.countsLawful = true → step s = .next t →
    t.transferLawful = true ∧ t.countsLawful = true
end

