-- ==== Sys2Proof/Laws/State.lean ====
section
/-! SUPPORT. One lemma for each field of State under each operation that replaces one block's record, and for each operation of the
outbound queue's list and the notice queue. -/

namespace Sys2Proof.Machine

variable (s : State)

@[simp] theorem State.withLc_inReset (x : LineController) : (s.withLc x).inReset = s.inReset := rfl
@[simp] theorem State.withLc_station (x : LineController) : (s.withLc x).station = s.station := rfl
@[simp] theorem State.withLc_bitRate (x : LineController) : (s.withLc x).bitRate = s.bitRate := rfl
@[simp] theorem State.withLc_lc (x : LineController) : (s.withLc x).lc = x := rfl
@[simp] theorem State.withLc_au (x : LineController) : (s.withLc x).au = s.au := rfl
@[simp] theorem State.withLc_pm (x : LineController) : (s.withLc x).pm = s.pm := rfl
@[simp] theorem State.withLc_sc (x : LineController) : (s.withLc x).sc = s.sc := rfl
@[simp] theorem State.withLc_tc (x : LineController) : (s.withLc x).tc = s.tc := rfl
@[simp] theorem State.withLc_rt (x : LineController) : (s.withLc x).rt = s.rt := rfl
@[simp] theorem State.withLc_oq (x : LineController) : (s.withLc x).oq = s.oq := rfl
@[simp] theorem State.withLc_gl (x : LineController) : (s.withLc x).gl = s.gl := rfl
@[simp] theorem State.withLc_ri (x : LineController) : (s.withLc x).ri = s.ri := rfl
@[simp] theorem State.withLc_hp (x : LineController) : (s.withLc x).hp = s.hp := rfl
@[simp] theorem State.withLc_choices (x : LineController) : (s.withLc x).choices = s.choices := rfl
@[simp] theorem State.withLc_pending (x : LineController) : (s.withLc x).pending = s.pending := rfl

@[simp] theorem State.withAu_inReset (x : ApplyUnit) : (s.withAu x).inReset = s.inReset := rfl
@[simp] theorem State.withAu_station (x : ApplyUnit) : (s.withAu x).station = s.station := rfl
@[simp] theorem State.withAu_bitRate (x : ApplyUnit) : (s.withAu x).bitRate = s.bitRate := rfl
@[simp] theorem State.withAu_lc (x : ApplyUnit) : (s.withAu x).lc = s.lc := rfl
@[simp] theorem State.withAu_au (x : ApplyUnit) : (s.withAu x).au = x := rfl
@[simp] theorem State.withAu_pm (x : ApplyUnit) : (s.withAu x).pm = s.pm := rfl
@[simp] theorem State.withAu_sc (x : ApplyUnit) : (s.withAu x).sc = s.sc := rfl
@[simp] theorem State.withAu_tc (x : ApplyUnit) : (s.withAu x).tc = s.tc := rfl
@[simp] theorem State.withAu_rt (x : ApplyUnit) : (s.withAu x).rt = s.rt := rfl
@[simp] theorem State.withAu_oq (x : ApplyUnit) : (s.withAu x).oq = s.oq := rfl
@[simp] theorem State.withAu_gl (x : ApplyUnit) : (s.withAu x).gl = s.gl := rfl
@[simp] theorem State.withAu_ri (x : ApplyUnit) : (s.withAu x).ri = s.ri := rfl
@[simp] theorem State.withAu_hp (x : ApplyUnit) : (s.withAu x).hp = s.hp := rfl
@[simp] theorem State.withAu_choices (x : ApplyUnit) : (s.withAu x).choices = s.choices := rfl
@[simp] theorem State.withAu_pending (x : ApplyUnit) : (s.withAu x).pending = s.pending := rfl

@[simp] theorem State.withPm_inReset (x : PresenceMonitor) : (s.withPm x).inReset = s.inReset := rfl
@[simp] theorem State.withPm_station (x : PresenceMonitor) : (s.withPm x).station = s.station := rfl
@[simp] theorem State.withPm_bitRate (x : PresenceMonitor) : (s.withPm x).bitRate = s.bitRate := rfl
@[simp] theorem State.withPm_lc (x : PresenceMonitor) : (s.withPm x).lc = s.lc := rfl
@[simp] theorem State.withPm_au (x : PresenceMonitor) : (s.withPm x).au = s.au := rfl
@[simp] theorem State.withPm_pm (x : PresenceMonitor) : (s.withPm x).pm = x := rfl
@[simp] theorem State.withPm_sc (x : PresenceMonitor) : (s.withPm x).sc = s.sc := rfl
@[simp] theorem State.withPm_tc (x : PresenceMonitor) : (s.withPm x).tc = s.tc := rfl
@[simp] theorem State.withPm_rt (x : PresenceMonitor) : (s.withPm x).rt = s.rt := rfl
@[simp] theorem State.withPm_oq (x : PresenceMonitor) : (s.withPm x).oq = s.oq := rfl
@[simp] theorem State.withPm_gl (x : PresenceMonitor) : (s.withPm x).gl = s.gl := rfl
@[simp] theorem State.withPm_ri (x : PresenceMonitor) : (s.withPm x).ri = s.ri := rfl
@[simp] theorem State.withPm_hp (x : PresenceMonitor) : (s.withPm x).hp = s.hp := rfl
@[simp] theorem State.withPm_choices (x : PresenceMonitor) : (s.withPm x).choices = s.choices := rfl
@[simp] theorem State.withPm_pending (x : PresenceMonitor) : (s.withPm x).pending = s.pending := rfl

@[simp] theorem State.withSc_inReset (x : StationController) : (s.withSc x).inReset = s.inReset := rfl
@[simp] theorem State.withSc_station (x : StationController) : (s.withSc x).station = s.station := rfl
@[simp] theorem State.withSc_bitRate (x : StationController) : (s.withSc x).bitRate = s.bitRate := rfl
@[simp] theorem State.withSc_lc (x : StationController) : (s.withSc x).lc = s.lc := rfl
@[simp] theorem State.withSc_au (x : StationController) : (s.withSc x).au = s.au := rfl
@[simp] theorem State.withSc_pm (x : StationController) : (s.withSc x).pm = s.pm := rfl
@[simp] theorem State.withSc_sc (x : StationController) : (s.withSc x).sc = x := rfl
@[simp] theorem State.withSc_tc (x : StationController) : (s.withSc x).tc = s.tc := rfl
@[simp] theorem State.withSc_rt (x : StationController) : (s.withSc x).rt = s.rt := rfl
@[simp] theorem State.withSc_oq (x : StationController) : (s.withSc x).oq = s.oq := rfl
@[simp] theorem State.withSc_gl (x : StationController) : (s.withSc x).gl = s.gl := rfl
@[simp] theorem State.withSc_ri (x : StationController) : (s.withSc x).ri = s.ri := rfl
@[simp] theorem State.withSc_hp (x : StationController) : (s.withSc x).hp = s.hp := rfl
@[simp] theorem State.withSc_choices (x : StationController) : (s.withSc x).choices = s.choices := rfl
@[simp] theorem State.withSc_pending (x : StationController) : (s.withSc x).pending = s.pending := rfl

@[simp] theorem State.withTc_inReset (x : TransferController) : (s.withTc x).inReset = s.inReset := rfl
@[simp] theorem State.withTc_station (x : TransferController) : (s.withTc x).station = s.station := rfl
@[simp] theorem State.withTc_bitRate (x : TransferController) : (s.withTc x).bitRate = s.bitRate := rfl
@[simp] theorem State.withTc_lc (x : TransferController) : (s.withTc x).lc = s.lc := rfl
@[simp] theorem State.withTc_au (x : TransferController) : (s.withTc x).au = s.au := rfl
@[simp] theorem State.withTc_pm (x : TransferController) : (s.withTc x).pm = s.pm := rfl
@[simp] theorem State.withTc_sc (x : TransferController) : (s.withTc x).sc = s.sc := rfl
@[simp] theorem State.withTc_tc (x : TransferController) : (s.withTc x).tc = x := rfl
@[simp] theorem State.withTc_rt (x : TransferController) : (s.withTc x).rt = s.rt := rfl
@[simp] theorem State.withTc_oq (x : TransferController) : (s.withTc x).oq = s.oq := rfl
@[simp] theorem State.withTc_gl (x : TransferController) : (s.withTc x).gl = s.gl := rfl
@[simp] theorem State.withTc_ri (x : TransferController) : (s.withTc x).ri = s.ri := rfl
@[simp] theorem State.withTc_hp (x : TransferController) : (s.withTc x).hp = s.hp := rfl
@[simp] theorem State.withTc_choices (x : TransferController) : (s.withTc x).choices = s.choices := rfl
@[simp] theorem State.withTc_pending (x : TransferController) : (s.withTc x).pending = s.pending := rfl

@[simp] theorem State.withRt_inReset (x : RequestTracker) : (s.withRt x).inReset = s.inReset := rfl
@[simp] theorem State.withRt_station (x : RequestTracker) : (s.withRt x).station = s.station := rfl
@[simp] theorem State.withRt_bitRate (x : RequestTracker) : (s.withRt x).bitRate = s.bitRate := rfl
@[simp] theorem State.withRt_lc (x : RequestTracker) : (s.withRt x).lc = s.lc := rfl
@[simp] theorem State.withRt_au (x : RequestTracker) : (s.withRt x).au = s.au := rfl
@[simp] theorem State.withRt_pm (x : RequestTracker) : (s.withRt x).pm = s.pm := rfl
@[simp] theorem State.withRt_sc (x : RequestTracker) : (s.withRt x).sc = s.sc := rfl
@[simp] theorem State.withRt_tc (x : RequestTracker) : (s.withRt x).tc = s.tc := rfl
@[simp] theorem State.withRt_rt (x : RequestTracker) : (s.withRt x).rt = x := rfl
@[simp] theorem State.withRt_oq (x : RequestTracker) : (s.withRt x).oq = s.oq := rfl
@[simp] theorem State.withRt_gl (x : RequestTracker) : (s.withRt x).gl = s.gl := rfl
@[simp] theorem State.withRt_ri (x : RequestTracker) : (s.withRt x).ri = s.ri := rfl
@[simp] theorem State.withRt_hp (x : RequestTracker) : (s.withRt x).hp = s.hp := rfl
@[simp] theorem State.withRt_choices (x : RequestTracker) : (s.withRt x).choices = s.choices := rfl
@[simp] theorem State.withRt_pending (x : RequestTracker) : (s.withRt x).pending = s.pending := rfl

@[simp] theorem State.withGl_inReset (x : GrantUnit) : (s.withGl x).inReset = s.inReset := rfl
@[simp] theorem State.withGl_station (x : GrantUnit) : (s.withGl x).station = s.station := rfl
@[simp] theorem State.withGl_bitRate (x : GrantUnit) : (s.withGl x).bitRate = s.bitRate := rfl
@[simp] theorem State.withGl_lc (x : GrantUnit) : (s.withGl x).lc = s.lc := rfl
@[simp] theorem State.withGl_au (x : GrantUnit) : (s.withGl x).au = s.au := rfl
@[simp] theorem State.withGl_pm (x : GrantUnit) : (s.withGl x).pm = s.pm := rfl
@[simp] theorem State.withGl_sc (x : GrantUnit) : (s.withGl x).sc = s.sc := rfl
@[simp] theorem State.withGl_tc (x : GrantUnit) : (s.withGl x).tc = s.tc := rfl
@[simp] theorem State.withGl_rt (x : GrantUnit) : (s.withGl x).rt = s.rt := rfl
@[simp] theorem State.withGl_oq (x : GrantUnit) : (s.withGl x).oq = s.oq := rfl
@[simp] theorem State.withGl_gl (x : GrantUnit) : (s.withGl x).gl = x := rfl
@[simp] theorem State.withGl_ri (x : GrantUnit) : (s.withGl x).ri = s.ri := rfl
@[simp] theorem State.withGl_hp (x : GrantUnit) : (s.withGl x).hp = s.hp := rfl
@[simp] theorem State.withGl_choices (x : GrantUnit) : (s.withGl x).choices = s.choices := rfl
@[simp] theorem State.withGl_pending (x : GrantUnit) : (s.withGl x).pending = s.pending := rfl

@[simp] theorem State.withRi_inReset (x : RequestInputs) : (s.withRi x).inReset = s.inReset := rfl
@[simp] theorem State.withRi_station (x : RequestInputs) : (s.withRi x).station = s.station := rfl
@[simp] theorem State.withRi_bitRate (x : RequestInputs) : (s.withRi x).bitRate = s.bitRate := rfl
@[simp] theorem State.withRi_lc (x : RequestInputs) : (s.withRi x).lc = s.lc := rfl
@[simp] theorem State.withRi_au (x : RequestInputs) : (s.withRi x).au = s.au := rfl
@[simp] theorem State.withRi_pm (x : RequestInputs) : (s.withRi x).pm = s.pm := rfl
@[simp] theorem State.withRi_sc (x : RequestInputs) : (s.withRi x).sc = s.sc := rfl
@[simp] theorem State.withRi_tc (x : RequestInputs) : (s.withRi x).tc = s.tc := rfl
@[simp] theorem State.withRi_rt (x : RequestInputs) : (s.withRi x).rt = s.rt := rfl
@[simp] theorem State.withRi_oq (x : RequestInputs) : (s.withRi x).oq = s.oq := rfl
@[simp] theorem State.withRi_gl (x : RequestInputs) : (s.withRi x).gl = s.gl := rfl
@[simp] theorem State.withRi_ri (x : RequestInputs) : (s.withRi x).ri = x := rfl
@[simp] theorem State.withRi_hp (x : RequestInputs) : (s.withRi x).hp = s.hp := rfl
@[simp] theorem State.withRi_choices (x : RequestInputs) : (s.withRi x).choices = s.choices := rfl
@[simp] theorem State.withRi_pending (x : RequestInputs) : (s.withRi x).pending = s.pending := rfl

@[simp] theorem State.withHp_inReset (x : HostPort) : (s.withHp x).inReset = s.inReset := rfl
@[simp] theorem State.withHp_station (x : HostPort) : (s.withHp x).station = s.station := rfl
@[simp] theorem State.withHp_bitRate (x : HostPort) : (s.withHp x).bitRate = s.bitRate := rfl
@[simp] theorem State.withHp_lc (x : HostPort) : (s.withHp x).lc = s.lc := rfl
@[simp] theorem State.withHp_au (x : HostPort) : (s.withHp x).au = s.au := rfl
@[simp] theorem State.withHp_pm (x : HostPort) : (s.withHp x).pm = s.pm := rfl
@[simp] theorem State.withHp_sc (x : HostPort) : (s.withHp x).sc = s.sc := rfl
@[simp] theorem State.withHp_tc (x : HostPort) : (s.withHp x).tc = s.tc := rfl
@[simp] theorem State.withHp_rt (x : HostPort) : (s.withHp x).rt = s.rt := rfl
@[simp] theorem State.withHp_oq (x : HostPort) : (s.withHp x).oq = s.oq := rfl
@[simp] theorem State.withHp_gl (x : HostPort) : (s.withHp x).gl = s.gl := rfl
@[simp] theorem State.withHp_ri (x : HostPort) : (s.withHp x).ri = s.ri := rfl
@[simp] theorem State.withHp_hp (x : HostPort) : (s.withHp x).hp = x := rfl
@[simp] theorem State.withHp_choices (x : HostPort) : (s.withHp x).choices = s.choices := rfl
@[simp] theorem State.withHp_pending (x : HostPort) : (s.withHp x).pending = s.pending := rfl

@[simp] theorem State.withReplica_inReset (x : Replica) : (s.withReplica x).inReset = s.inReset := rfl
@[simp] theorem State.withReplica_station (x : Replica) : (s.withReplica x).station = s.station := rfl
@[simp] theorem State.withReplica_bitRate (x : Replica) : (s.withReplica x).bitRate = s.bitRate := rfl
@[simp] theorem State.withReplica_lc (x : Replica) : (s.withReplica x).lc = s.lc := rfl
@[simp] theorem State.withReplica_au (x : Replica) : (s.withReplica x).au = { s.au with replica := x } := rfl
@[simp] theorem State.withReplica_pm (x : Replica) : (s.withReplica x).pm = s.pm := rfl
@[simp] theorem State.withReplica_sc (x : Replica) : (s.withReplica x).sc = s.sc := rfl
@[simp] theorem State.withReplica_tc (x : Replica) : (s.withReplica x).tc = s.tc := rfl
@[simp] theorem State.withReplica_rt (x : Replica) : (s.withReplica x).rt = s.rt := rfl
@[simp] theorem State.withReplica_oq (x : Replica) : (s.withReplica x).oq = s.oq := rfl
@[simp] theorem State.withReplica_gl (x : Replica) : (s.withReplica x).gl = s.gl := rfl
@[simp] theorem State.withReplica_ri (x : Replica) : (s.withReplica x).ri = s.ri := rfl
@[simp] theorem State.withReplica_hp (x : Replica) : (s.withReplica x).hp = s.hp := rfl
@[simp] theorem State.withReplica_choices (x : Replica) : (s.withReplica x).choices = s.choices := rfl
@[simp] theorem State.withReplica_pending (x : Replica) : (s.withReplica x).pending = s.pending := rfl

@[simp] theorem State.withEntries_inReset (x : List Entry) : (s.withEntries x).inReset = s.inReset := rfl
@[simp] theorem State.withEntries_station (x : List Entry) : (s.withEntries x).station = s.station := rfl
@[simp] theorem State.withEntries_bitRate (x : List Entry) : (s.withEntries x).bitRate = s.bitRate := rfl
@[simp] theorem State.withEntries_lc (x : List Entry) : (s.withEntries x).lc = s.lc := rfl
@[simp] theorem State.withEntries_au (x : List Entry) : (s.withEntries x).au = s.au := rfl
@[simp] theorem State.withEntries_pm (x : List Entry) : (s.withEntries x).pm = s.pm := rfl
@[simp] theorem State.withEntries_sc (x : List Entry) : (s.withEntries x).sc = s.sc := rfl
@[simp] theorem State.withEntries_tc (x : List Entry) : (s.withEntries x).tc = s.tc := rfl
@[simp] theorem State.withEntries_rt (x : List Entry) : (s.withEntries x).rt = s.rt := rfl
@[simp] theorem State.withEntries_oq (x : List Entry) : (s.withEntries x).oq = { entries := x } := rfl
@[simp] theorem State.withEntries_gl (x : List Entry) : (s.withEntries x).gl = s.gl := rfl
@[simp] theorem State.withEntries_ri (x : List Entry) : (s.withEntries x).ri = s.ri := rfl
@[simp] theorem State.withEntries_hp (x : List Entry) : (s.withEntries x).hp = s.hp := rfl
@[simp] theorem State.withEntries_choices (x : List Entry) : (s.withEntries x).choices = s.choices := rfl
@[simp] theorem State.withEntries_pending (x : List Entry) : (s.withEntries x).pending = s.pending := rfl

end Sys2Proof.Machine
end

