-- ==== Sys2Proof/Laws/Tables.lean ====
section
/-! SUPPORT. Tables of fixed size and sets of stations: what each operation reads as afterwards. -/

namespace Sys2Proof.Machine

variable {α : Type} {n : Nat}

theorem tabulate_get (f : Fin n → α) (i : Fin n) : (tabulate f)[i] = f i := by
  simp [tabulate]

@[simp] theorem tabulate_getElem (f : Fin n → α) (i : Nat) (h : i < n) : (tabulate f)[i] = f ⟨i, h⟩ := by
  simp [tabulate]

theorem putAt_get (v : Vector α n) (i j : Fin n) (x : α) : (putAt v i x)[j] = if i = j then x else v[j] := by
  simp [putAt, Vector.getElem_set, Fin.ext_iff]

@[simp] theorem putAt_getElem (v : Vector α n) (i : Fin n) (x : α) (j : Nat) (h : j < n) :
    (putAt v i x)[j] = if i.val = j then x else v[j] := by
  simp [putAt, Vector.getElem_set]

theorem putAt_get_self (v : Vector α n) (i : Fin n) (x : α) : (putAt v i x)[i] = x := by simp

theorem putAt_get_other (v : Vector α n) {i j : Fin n} (x : α) (h : i ≠ j) : (putAt v i x)[j] = v[j] := by
  rw [putAt_get, if_neg h]

/-- Two tables that read alike at every place are equal. -/
theorem table_ext {v w : Vector α n} (h : ∀ i : Fin n, v[i] = w[i]) : v = w := by
  apply Vector.ext
  intro i hi
  exact h ⟨i, hi⟩

theorem putAt_same (v : Vector α n) (i : Fin n) : putAt v i v[i] = v := by
  apply table_ext
  intro j
  rw [putAt_get]
  split
  · subst_vars; rfl
  · rfl

/-! ### Sets of stations -/

theorem noStations_get (t : Station) : noStations[t] = false := by simp [noStations]

theorem addStation_get (m : StationSet) (t u : Station) : (addStation m t)[u] = (decide (t = u) || m[u]) := by
  rw [addStation, putAt_get]
  split <;> simp_all

theorem dropStation_get (m : StationSet) (t u : Station) : (dropStation m t)[u] = (!decide (t = u) && m[u]) := by
  rw [dropStation, putAt_get]
  split <;> simp_all

theorem setOfList_get (l : List Station) (t : Station) : (setOfList l)[t] = decide (t ∈ l) := by
  simp [setOfList]

@[simp] theorem mem_stationsOf (m : StationSet) (t : Station) : t ∈ stationsOf m ↔ m[t] = true := by
  simp [stationsOf]

theorem stationsOf_nodup (m : StationSet) : (stationsOf m).Nodup := (List.nodup_finRange 32).filter _

theorem countOf_le (m : StationSet) : countOf m ≤ 32 := by
  have h := List.length_filter_le (fun t : Station => m[t]) (List.finRange 32)
  simpa [countOf, stationsOf] using h

/-- The lowest-numbered station of a set is one of the set. -/
theorem lowestOf_mem {m : StationSet} {t : Station} (h : lowestOf m = some t) : m[t] = true := by
  rw [← mem_stationsOf]
  exact List.mem_of_mem_head? h

theorem lowestOf_none {m : StationSet} : lowestOf m = none ↔ ∀ t : Station, m[t] = false := by
  rw [lowestOf, List.head?_eq_none_iff, List.eq_nil_iff_forall_not_mem]
  simp

/-- The lowest-numbered station of a set is the one below which there is none. -/
theorem lowestOf_some {m : StationSet} {t : Station} :
    lowestOf m = some t ↔ m[t] = true ∧ ∀ k : Station, k < t → m[k] = false := by
  have hs : (stationsOf m).Pairwise (· < ·) := (List.pairwise_lt_finRange 32).filter _
  constructor
  · intro h
    refine ⟨lowestOf_mem h, ?_⟩
    intro k hk
    by_contra hc
    have hmem : k ∈ stationsOf m := by rw [mem_stationsOf]; simpa using hc
    rw [lowestOf] at h
    cases hl : stationsOf m with
    | nil => rw [hl] at h; cases h
    | cons x l =>
      rw [hl] at h hmem hs
      cases h
      rw [List.pairwise_cons] at hs
      rcases List.mem_cons.mp hmem with h1 | h1
      · exact absurd hk (by simp [h1])
      · exact absurd hk (lt_asymm (hs.1 k h1))
  · rintro ⟨h1, h2⟩
    cases hl : lowestOf m with
    | none => rw [lowestOf_none] at hl; simp [hl t] at h1
    | some x =>
      have hx := lowestOf_mem hl
      rcases lt_trichotomy x t with h | h | h
      · have := h2 x h; simp_all
      · rw [h]
      · have hmem : t ∈ stationsOf m := by rw [mem_stationsOf]; exact h1
        rw [lowestOf] at hl
        cases hl' : stationsOf m with
        | nil => rw [hl'] at hl; cases hl
        | cons y l =>
          rw [hl'] at hl hmem hs
          cases hl
          rw [List.pairwise_cons] at hs
          rcases List.mem_cons.mp hmem with h3 | h3
          · rw [h3]
          · exact absurd h (lt_asymm (hs.1 t h3))

end Sys2Proof.Machine
end

