-- ==== Sys2Proof/Laws/ApplyFrames.lean ====
section
/-! SUPPORT. The frame of the Apply Unit's operations on State, and what an applied frame leaves of the replica. -/

namespace Sys2Proof.Machine

@[simp] theorem installPage_frame (p : List Byte) (s : State) (rep : Report) :
    (installPage p s rep).1.inReset = s.inReset ∧ (installPage p s rep).1.station = s.station ∧
    (installPage p s rep).1.bitRate = s.bitRate ∧ (installPage p s rep).1.lc = s.lc ∧ (installPage p s rep).1.pm = s.pm ∧
    (installPage p s rep).1.rt = s.rt ∧ (installPage p s rep).1.oq = s.oq ∧ (installPage p s rep).1.gl = s.gl ∧
    (installPage p s rep).1.ri = s.ri ∧ (installPage p s rep).1.hp = s.hp ∧ (installPage p s rep).1.choices = s.choices ∧
    (installPage p s rep).1.pending = s.pending := by
  unfold installPage
  dsimp only
  split <;> simp

@[simp] theorem applyFrame_frame (own : Bool) (f : Frame) (s : State) :
    (applyFrame own f s).1.inReset = s.inReset ∧ (applyFrame own f s).1.station = s.station ∧
    (applyFrame own f s).1.bitRate = s.bitRate ∧ (applyFrame own f s).1.lc = s.lc ∧ (applyFrame own f s).1.pm = s.pm ∧
    (applyFrame own f s).1.rt = s.rt ∧ (applyFrame own f s).1.oq = s.oq ∧ (applyFrame own f s).1.gl = s.gl ∧
    (applyFrame own f s).1.ri = s.ri ∧ (applyFrame own f s).1.hp = s.hp ∧ (applyFrame own f s).1.choices = s.choices ∧
    (applyFrame own f s).1.pending = s.pending := by
  unfold applyFrame
  dsimp only
  split <;> simp

@[simp] theorem takeFrame_frame (own : Bool) (f : Frame) (s : State) :
    (takeFrame own f s).1.inReset = s.inReset ∧ (takeFrame own f s).1.station = s.station ∧
    (takeFrame own f s).1.bitRate = s.bitRate ∧ (takeFrame own f s).1.lc = s.lc ∧ (takeFrame own f s).1.pm = s.pm ∧
    (takeFrame own f s).1.rt = s.rt ∧ (takeFrame own f s).1.oq = s.oq ∧ (takeFrame own f s).1.gl = s.gl ∧
    (takeFrame own f s).1.ri = s.ri ∧ (takeFrame own f s).1.hp = s.hp ∧ (takeFrame own f s).1.choices = s.choices ∧
    (takeFrame own f s).1.pending = s.pending := by
  unfold takeFrame
  split <;> simp

/-- The Apply Unit changes no more of the Station Controller than the round timer (R86). -/
@[simp] theorem installPage_state (p : List Byte) (s : State) (rep : Report) :
    (installPage p s rep).1.sc.state = s.sc.state ∧ (installPage p s rep).1.sc.config = s.sc.config := by
  unfold installPage
  dsimp only
  split <;> simp

@[simp] theorem applyFrame_state (own : Bool) (f : Frame) (s : State) :
    (applyFrame own f s).1.sc.state = s.sc.state ∧ (applyFrame own f s).1.sc.config = s.sc.config := by
  unfold applyFrame
  dsimp only
  split <;> simp

@[simp] theorem takeFrame_state (own : Bool) (f : Frame) (s : State) :
    (takeFrame own f s).1.sc.state = s.sc.state ∧ (takeFrame own f s).1.sc.config = s.sc.config := by
  unfold takeFrame
  split <;> simp

end Sys2Proof.Machine
end

