-- ==== Sys2Proof/Laws/Queue.lean ====
section
/-! SUPPORT. The frame of each operation of Machine/Ops.lean: the fields of State it leaves unchanged. -/

namespace Sys2Proof.Machine

variable (s : State)

@[simp] theorem placeNotice_frame (x : Notice) :
    (placeNotice x s).inReset = s.inReset ∧ (placeNotice x s).station = s.station ∧ (placeNotice x s).bitRate = s.bitRate ∧
    (placeNotice x s).lc = s.lc ∧ (placeNotice x s).au = s.au ∧ (placeNotice x s).pm = s.pm ∧ (placeNotice x s).sc = s.sc ∧
    (placeNotice x s).tc = s.tc ∧ (placeNotice x s).rt = s.rt ∧ (placeNotice x s).oq = s.oq ∧ (placeNotice x s).gl = s.gl ∧
    (placeNotice x s).ri = s.ri ∧ (placeNotice x s).choices = s.choices ∧ (placeNotice x s).pending = s.pending := by
  unfold placeNotice
  split <;> simp

@[simp] theorem lockNotice_frame (k : NoticeKind) (l : Lock) (g : Option Generation) (q : Qualifier) :
    (lockNotice k l g q s).inReset = s.inReset ∧ (lockNotice k l g q s).station = s.station ∧
    (lockNotice k l g q s).bitRate = s.bitRate ∧ (lockNotice k l g q s).lc = s.lc ∧ (lockNotice k l g q s).au = s.au ∧
    (lockNotice k l g q s).pm = s.pm ∧ (lockNotice k l g q s).sc = s.sc ∧ (lockNotice k l g q s).tc = s.tc ∧
    (lockNotice k l g q s).rt = s.rt ∧ (lockNotice k l g q s).oq = s.oq ∧ (lockNotice k l g q s).gl = s.gl ∧
    (lockNotice k l g q s).ri = s.ri ∧ (lockNotice k l g q s).choices = s.choices ∧
    (lockNotice k l g q s).pending = s.pending := by
  simp [lockNotice]

@[simp] theorem stationNotice_frame (k : NoticeKind) (t : Option Station) (q : Qualifier) :
    (stationNotice k t q s).inReset = s.inReset ∧ (stationNotice k t q s).station = s.station ∧
    (stationNotice k t q s).bitRate = s.bitRate ∧ (stationNotice k t q s).lc = s.lc ∧ (stationNotice k t q s).au = s.au ∧
    (stationNotice k t q s).pm = s.pm ∧ (stationNotice k t q s).sc = s.sc ∧ (stationNotice k t q s).tc = s.tc ∧
    (stationNotice k t q s).rt = s.rt ∧ (stationNotice k t q s).oq = s.oq ∧ (stationNotice k t q s).gl = s.gl ∧
    (stationNotice k t q s).ri = s.ri ∧ (stationNotice k t q s).choices = s.choices ∧
    (stationNotice k t q s).pending = s.pending := by
  simp [stationNotice]

@[simp] theorem placeEntry_frame (c : Content) :
    (placeEntry c s).inReset = s.inReset ∧ (placeEntry c s).station = s.station ∧ (placeEntry c s).bitRate = s.bitRate ∧
    (placeEntry c s).lc = s.lc ∧ (placeEntry c s).au = s.au ∧ (placeEntry c s).pm = s.pm ∧ (placeEntry c s).sc = s.sc ∧
    (placeEntry c s).tc = s.tc ∧ (placeEntry c s).rt = s.rt ∧ (placeEntry c s).gl = s.gl ∧ (placeEntry c s).ri = s.ri ∧
    (placeEntry c s).hp = s.hp ∧ (placeEntry c s).choices = s.choices ∧ (placeEntry c s).pending = s.pending := by
  simp [placeEntry]

@[simp] theorem cancelQueued_frame (p : Entry → Bool) :
    (cancelQueued p s).inReset = s.inReset ∧ (cancelQueued p s).station = s.station ∧
    (cancelQueued p s).bitRate = s.bitRate ∧ (cancelQueued p s).lc = s.lc ∧ (cancelQueued p s).au = s.au ∧
    (cancelQueued p s).pm = s.pm ∧ (cancelQueued p s).sc = s.sc ∧ (cancelQueued p s).tc = s.tc ∧
    (cancelQueued p s).rt = s.rt ∧ (cancelQueued p s).gl = s.gl ∧ (cancelQueued p s).ri = s.ri ∧
    (cancelQueued p s).hp = s.hp ∧ (cancelQueued p s).choices = s.choices ∧ (cancelQueued p s).pending = s.pending := by
  simp [cancelQueued]

@[simp] theorem purgeAll_frame :
    (purgeAll s).inReset = s.inReset ∧ (purgeAll s).station = s.station ∧ (purgeAll s).bitRate = s.bitRate ∧
    (purgeAll s).lc = s.lc ∧ (purgeAll s).au = s.au ∧ (purgeAll s).pm = s.pm ∧ (purgeAll s).sc = s.sc ∧
    (purgeAll s).tc = s.tc ∧ (purgeAll s).rt = s.rt ∧ (purgeAll s).gl = s.gl ∧ (purgeAll s).ri = s.ri ∧
    (purgeAll s).hp = s.hp ∧ (purgeAll s).choices = s.choices ∧ (purgeAll s).pending = s.pending := by
  simp [purgeAll]

@[simp] theorem removeContending_frame :
    (removeContending s).inReset = s.inReset ∧ (removeContending s).station = s.station ∧
    (removeContending s).bitRate = s.bitRate ∧ (removeContending s).lc = s.lc ∧ (removeContending s).au = s.au ∧
    (removeContending s).pm = s.pm ∧ (removeContending s).sc = s.sc ∧ (removeContending s).tc = s.tc ∧
    (removeContending s).rt = s.rt ∧ (removeContending s).gl = s.gl ∧ (removeContending s).ri = s.ri ∧
    (removeContending s).hp = s.hp ∧ (removeContending s).choices = s.choices ∧ (removeContending s).pending = s.pending := by
  simp [removeContending]

@[simp] theorem returnContending_frame (v : Nat) :
    (returnContending v s).inReset = s.inReset ∧ (returnContending v s).station = s.station ∧
    (returnContending v s).bitRate = s.bitRate ∧ (returnContending v s).lc = s.lc ∧ (returnContending v s).au = s.au ∧
    (returnContending v s).pm = s.pm ∧ (returnContending v s).sc = s.sc ∧ (returnContending v s).tc = s.tc ∧
    (returnContending v s).rt = s.rt ∧ (returnContending v s).gl = s.gl ∧ (returnContending v s).ri = s.ri ∧
    (returnContending v s).hp = s.hp ∧ (returnContending v s).choices = s.choices ∧
    (returnContending v s).pending = s.pending := by
  simp [returnContending]

end Sys2Proof.Machine
end

