-- ==== Sys2Proof/Laws/TrackerFrames.lean ====
section
/-! SUPPORT. The frame of each operation of Machine/Tracker.lean: the fields of State it leaves unchanged. -/

namespace Sys2Proof.Machine

variable (s : State)

@[simp] theorem setGuards_frame (p : Lock → Bool) (x : Guard) :
    (setGuards p x s).inReset = s.inReset ∧ (setGuards p x s).station = s.station ∧ (setGuards p x s).bitRate = s.bitRate ∧
    (setGuards p x s).lc = s.lc ∧ (setGuards p x s).au = s.au ∧ (setGuards p x s).pm = s.pm ∧ (setGuards p x s).sc = s.sc ∧
    (setGuards p x s).tc = s.tc ∧ (setGuards p x s).rt = s.rt ∧ (setGuards p x s).oq = s.oq ∧ (setGuards p x s).ri = s.ri ∧
    (setGuards p x s).hp = s.hp ∧ (setGuards p x s).choices = s.choices ∧ (setGuards p x s).pending = s.pending := by
  simp [setGuards]

@[simp] theorem startGuards_frame (l : Lock) :
    (startGuards l s).inReset = s.inReset ∧ (startGuards l s).station = s.station ∧ (startGuards l s).bitRate = s.bitRate ∧
    (startGuards l s).lc = s.lc ∧ (startGuards l s).au = s.au ∧ (startGuards l s).pm = s.pm ∧ (startGuards l s).sc = s.sc ∧
    (startGuards l s).tc = s.tc ∧ (startGuards l s).rt = s.rt ∧ (startGuards l s).oq = s.oq ∧ (startGuards l s).ri = s.ri ∧
    (startGuards l s).hp = s.hp ∧ (startGuards l s).choices = s.choices ∧ (startGuards l s).pending = s.pending := by
  unfold startGuards
  split <;> simp

@[simp] theorem stopGuards_frame (l : Lock) :
    (stopGuards l s).inReset = s.inReset ∧ (stopGuards l s).station = s.station ∧ (stopGuards l s).bitRate = s.bitRate ∧
    (stopGuards l s).lc = s.lc ∧ (stopGuards l s).au = s.au ∧ (stopGuards l s).pm = s.pm ∧ (stopGuards l s).sc = s.sc ∧
    (stopGuards l s).tc = s.tc ∧ (stopGuards l s).rt = s.rt ∧ (stopGuards l s).oq = s.oq ∧ (stopGuards l s).ri = s.ri ∧
    (stopGuards l s).hp = s.hp ∧ (stopGuards l s).choices = s.choices ∧ (stopGuards l s).pending = s.pending := by
  simp [stopGuards]

@[simp] theorem restartHeldGuards_frame :
    (restartHeldGuards s).inReset = s.inReset ∧ (restartHeldGuards s).station = s.station ∧
    (restartHeldGuards s).bitRate = s.bitRate ∧ (restartHeldGuards s).lc = s.lc ∧ (restartHeldGuards s).au = s.au ∧
    (restartHeldGuards s).pm = s.pm ∧ (restartHeldGuards s).sc = s.sc ∧ (restartHeldGuards s).tc = s.tc ∧
    (restartHeldGuards s).rt = s.rt ∧ (restartHeldGuards s).oq = s.oq ∧ (restartHeldGuards s).ri = s.ri ∧
    (restartHeldGuards s).hp = s.hp ∧ (restartHeldGuards s).choices = s.choices ∧
    (restartHeldGuards s).pending = s.pending := by
  simp [restartHeldGuards]

@[simp] theorem stopAllGuards_frame :
    (stopAllGuards s).inReset = s.inReset ∧ (stopAllGuards s).station = s.station ∧ (stopAllGuards s).bitRate = s.bitRate ∧
    (stopAllGuards s).lc = s.lc ∧ (stopAllGuards s).au = s.au ∧ (stopAllGuards s).pm = s.pm ∧ (stopAllGuards s).sc = s.sc ∧
    (stopAllGuards s).tc = s.tc ∧ (stopAllGuards s).rt = s.rt ∧ (stopAllGuards s).oq = s.oq ∧ (stopAllGuards s).ri = s.ri ∧
    (stopAllGuards s).hp = s.hp ∧ (stopAllGuards s).choices = s.choices ∧ (stopAllGuards s).pending = s.pending := by
  simp [stopAllGuards]

@[simp] theorem setSlot_frame (t : Tier) (r : Option HoldRecord) :
    (setSlot t r s).inReset = s.inReset ∧ (setSlot t r s).station = s.station ∧ (setSlot t r s).bitRate = s.bitRate ∧
    (setSlot t r s).lc = s.lc ∧ (setSlot t r s).au = s.au ∧ (setSlot t r s).pm = s.pm ∧ (setSlot t r s).sc = s.sc ∧
    (setSlot t r s).tc = s.tc ∧ (setSlot t r s).oq = s.oq ∧ (setSlot t r s).gl = s.gl ∧ (setSlot t r s).ri = s.ri ∧
    (setSlot t r s).hp = s.hp ∧ (setSlot t r s).choices = s.choices ∧ (setSlot t r s).pending = s.pending := by
  simp [setSlot]

@[simp] theorem cancelRequest_frame (t : Tier) :
    (cancelRequest t s).inReset = s.inReset ∧ (cancelRequest t s).station = s.station ∧
    (cancelRequest t s).bitRate = s.bitRate ∧ (cancelRequest t s).lc = s.lc ∧ (cancelRequest t s).au = s.au ∧
    (cancelRequest t s).pm = s.pm ∧ (cancelRequest t s).sc = s.sc ∧ (cancelRequest t s).tc = s.tc ∧
    (cancelRequest t s).rt = s.rt ∧ (cancelRequest t s).gl = s.gl ∧ (cancelRequest t s).ri = s.ri ∧
    (cancelRequest t s).hp = s.hp ∧ (cancelRequest t s).choices = s.choices ∧ (cancelRequest t s).pending = s.pending := by
  simp [cancelRequest]

@[simp] theorem ignorePin_frame (p : Pin) :
    (ignorePin p s).inReset = s.inReset ∧ (ignorePin p s).station = s.station ∧ (ignorePin p s).bitRate = s.bitRate ∧
    (ignorePin p s).lc = s.lc ∧ (ignorePin p s).au = s.au ∧ (ignorePin p s).pm = s.pm ∧ (ignorePin p s).sc = s.sc ∧
    (ignorePin p s).tc = s.tc ∧ (ignorePin p s).rt = s.rt ∧ (ignorePin p s).oq = s.oq ∧ (ignorePin p s).gl = s.gl ∧
    (ignorePin p s).hp = s.hp ∧ (ignorePin p s).choices = s.choices ∧ (ignorePin p s).pending = s.pending := by
  simp [ignorePin]

@[simp] theorem ignoreOrigin_frame (o : Origin) :
    (ignoreOrigin o s).inReset = s.inReset ∧ (ignoreOrigin o s).station = s.station ∧
    (ignoreOrigin o s).bitRate = s.bitRate ∧ (ignoreOrigin o s).lc = s.lc ∧ (ignoreOrigin o s).au = s.au ∧
    (ignoreOrigin o s).pm = s.pm ∧ (ignoreOrigin o s).sc = s.sc ∧ (ignoreOrigin o s).tc = s.tc ∧
    (ignoreOrigin o s).rt = s.rt ∧ (ignoreOrigin o s).oq = s.oq ∧ (ignoreOrigin o s).gl = s.gl ∧
    (ignoreOrigin o s).hp = s.hp ∧ (ignoreOrigin o s).choices = s.choices ∧ (ignoreOrigin o s).pending = s.pending := by
  unfold ignoreOrigin
  split <;> simp

@[simp] theorem placeClaim_frame (o : Origin) (l : Lock) (m : Mode) (limit : Byte) :
    (placeClaim o l m limit s).inReset = s.inReset ∧ (placeClaim o l m limit s).station = s.station ∧
    (placeClaim o l m limit s).bitRate = s.bitRate ∧ (placeClaim o l m limit s).lc = s.lc ∧
    (placeClaim o l m limit s).au = s.au ∧ (placeClaim o l m limit s).pm = s.pm ∧ (placeClaim o l m limit s).sc = s.sc ∧
    (placeClaim o l m limit s).tc = s.tc ∧ (placeClaim o l m limit s).gl = s.gl ∧ (placeClaim o l m limit s).ri = s.ri ∧
    (placeClaim o l m limit s).hp = s.hp ∧ (placeClaim o l m limit s).choices = s.choices ∧
    (placeClaim o l m limit s).pending = s.pending := by
  simp [placeClaim]

@[simp] theorem yieldRecord_frame (why : Reason) (r : HoldRecord) :
    (yieldRecord why r s).inReset = s.inReset ∧ (yieldRecord why r s).station = s.station ∧
    (yieldRecord why r s).bitRate = s.bitRate ∧ (yieldRecord why r s).lc = s.lc ∧ (yieldRecord why r s).au = s.au ∧
    (yieldRecord why r s).pm = s.pm ∧ (yieldRecord why r s).sc = s.sc ∧ (yieldRecord why r s).tc = s.tc ∧
    (yieldRecord why r s).ri = s.ri ∧ (yieldRecord why r s).hp = s.hp ∧ (yieldRecord why r s).choices = s.choices ∧
    (yieldRecord why r s).pending = s.pending := by
  unfold yieldRecord
  split <;> simp

@[simp] theorem withdrawRecord_frame (r : HoldRecord) :
    (withdrawRecord r s).inReset = s.inReset ∧ (withdrawRecord r s).station = s.station ∧
    (withdrawRecord r s).bitRate = s.bitRate ∧ (withdrawRecord r s).lc = s.lc ∧ (withdrawRecord r s).au = s.au ∧
    (withdrawRecord r s).pm = s.pm ∧ (withdrawRecord r s).sc = s.sc ∧ (withdrawRecord r s).tc = s.tc ∧
    (withdrawRecord r s).gl = s.gl ∧ (withdrawRecord r s).ri = s.ri ∧ (withdrawRecord r s).choices = s.choices ∧
    (withdrawRecord r s).pending = s.pending := by
  unfold withdrawRecord
  (repeat' split) <;> simp

@[simp] theorem pinClaim_frame (p : Pin) (l : Lock) :
    (pinClaim p l s).inReset = s.inReset ∧ (pinClaim p l s).station = s.station ∧ (pinClaim p l s).bitRate = s.bitRate ∧
    (pinClaim p l s).lc = s.lc ∧ (pinClaim p l s).au = s.au ∧ (pinClaim p l s).pm = s.pm ∧ (pinClaim p l s).sc = s.sc ∧
    (pinClaim p l s).tc = s.tc ∧ (pinClaim p l s).gl = s.gl ∧ (pinClaim p l s).choices = s.choices ∧
    (pinClaim p l s).pending = s.pending := by
  unfold pinClaim
  split <;> simp

@[simp] theorem evaluatePin_frame (p : Pin) :
    (evaluatePin p s).inReset = s.inReset ∧ (evaluatePin p s).station = s.station ∧ (evaluatePin p s).bitRate = s.bitRate ∧
    (evaluatePin p s).lc = s.lc ∧ (evaluatePin p s).au = s.au ∧ (evaluatePin p s).pm = s.pm ∧ (evaluatePin p s).sc = s.sc ∧
    (evaluatePin p s).tc = s.tc ∧ (evaluatePin p s).choices = s.choices ∧ (evaluatePin p s).pending = s.pending := by
  unfold evaluatePin
  (repeat' split) <;> simp

@[simp] theorem evaluateOrigin_frame (o : Origin) :
    (evaluateOrigin o s).inReset = s.inReset ∧ (evaluateOrigin o s).station = s.station ∧
    (evaluateOrigin o s).bitRate = s.bitRate ∧ (evaluateOrigin o s).lc = s.lc ∧ (evaluateOrigin o s).au = s.au ∧
    (evaluateOrigin o s).pm = s.pm ∧ (evaluateOrigin o s).sc = s.sc ∧ (evaluateOrigin o s).tc = s.tc ∧
    (evaluateOrigin o s).choices = s.choices ∧ (evaluateOrigin o s).pending = s.pending := by
  unfold evaluateOrigin
  split <;> simp

@[simp] theorem enterHeld_frame (k : NoticeKind) (m : Bool) (g : Generation) (r : HoldRecord) :
    (enterHeld k m g r s).inReset = s.inReset ∧ (enterHeld k m g r s).station = s.station ∧
    (enterHeld k m g r s).bitRate = s.bitRate ∧ (enterHeld k m g r s).lc = s.lc ∧ (enterHeld k m g r s).au = s.au ∧
    (enterHeld k m g r s).pm = s.pm ∧ (enterHeld k m g r s).sc = s.sc ∧ (enterHeld k m g r s).tc = s.tc ∧
    (enterHeld k m g r s).choices = s.choices ∧ (enterHeld k m g r s).pending = s.pending := by
  simp [enterHeld]

@[simp] theorem emptySlot_frame (n : Option (NoticeKind × Option Generation × Qualifier)) (r : HoldRecord) :
    (emptySlot n r s).inReset = s.inReset ∧ (emptySlot n r s).station = s.station ∧ (emptySlot n r s).bitRate = s.bitRate ∧
    (emptySlot n r s).lc = s.lc ∧ (emptySlot n r s).au = s.au ∧ (emptySlot n r s).pm = s.pm ∧ (emptySlot n r s).sc = s.sc ∧
    (emptySlot n r s).tc = s.tc ∧ (emptySlot n r s).choices = s.choices ∧ (emptySlot n r s).pending = s.pending := by
  unfold emptySlot
  split <;> simp

@[simp] theorem enterWaiting_frame (g : Generation) (r : HoldRecord) :
    (enterWaiting g r s).inReset = s.inReset ∧ (enterWaiting g r s).station = s.station ∧
    (enterWaiting g r s).bitRate = s.bitRate ∧ (enterWaiting g r s).lc = s.lc ∧ (enterWaiting g r s).au = s.au ∧
    (enterWaiting g r s).pm = s.pm ∧ (enterWaiting g r s).sc = s.sc ∧ (enterWaiting g r s).tc = s.tc ∧
    (enterWaiting g r s).choices = s.choices ∧ (enterWaiting g r s).pending = s.pending := by
  simp [enterWaiting]

@[simp] theorem enterWithdrawing_frame (r : HoldRecord) :
    (enterWithdrawing r s).inReset = s.inReset ∧ (enterWithdrawing r s).station = s.station ∧
    (enterWithdrawing r s).bitRate = s.bitRate ∧ (enterWithdrawing r s).lc = s.lc ∧ (enterWithdrawing r s).au = s.au ∧
    (enterWithdrawing r s).pm = s.pm ∧ (enterWithdrawing r s).sc = s.sc ∧ (enterWithdrawing r s).tc = s.tc ∧
    (enterWithdrawing r s).gl = s.gl ∧ (enterWithdrawing r s).ri = s.ri ∧ (enterWithdrawing r s).hp = s.hp ∧
    (enterWithdrawing r s).choices = s.choices ∧ (enterWithdrawing r s).pending = s.pending := by
  unfold enterWithdrawing
  split <;> simp

@[simp] theorem withdrawLeft_frame (r : HoldRecord) :
    (withdrawLeft r s).inReset = s.inReset ∧ (withdrawLeft r s).station = s.station ∧
    (withdrawLeft r s).bitRate = s.bitRate ∧ (withdrawLeft r s).lc = s.lc ∧ (withdrawLeft r s).au = s.au ∧
    (withdrawLeft r s).pm = s.pm ∧ (withdrawLeft r s).sc = s.sc ∧ (withdrawLeft r s).tc = s.tc ∧
    (withdrawLeft r s).gl = s.gl ∧ (withdrawLeft r s).ri = s.ri ∧ (withdrawLeft r s).hp = s.hp ∧
    (withdrawLeft r s).choices = s.choices ∧ (withdrawLeft r s).pending = s.pending := by
  unfold withdrawLeft
  split <;> simp

@[simp] theorem takeGrant_frame (g : Generation) (r : HoldRecord) :
    (takeGrant g r s).inReset = s.inReset ∧ (takeGrant g r s).station = s.station ∧ (takeGrant g r s).bitRate = s.bitRate ∧
    (takeGrant g r s).lc = s.lc ∧ (takeGrant g r s).au = s.au ∧ (takeGrant g r s).pm = s.pm ∧ (takeGrant g r s).sc = s.sc ∧
    (takeGrant g r s).tc = s.tc ∧ (takeGrant g r s).choices = s.choices ∧ (takeGrant g r s).pending = s.pending := by
  unfold takeGrant
  (repeat' split) <;> simp

@[simp] theorem takeOutcome_frame (o : LockOutcome) :
    (takeOutcome o s).inReset = s.inReset ∧ (takeOutcome o s).station = s.station ∧ (takeOutcome o s).bitRate = s.bitRate ∧
    (takeOutcome o s).lc = s.lc ∧ (takeOutcome o s).au = s.au ∧ (takeOutcome o s).pm = s.pm ∧ (takeOutcome o s).sc = s.sc ∧
    (takeOutcome o s).tc = s.tc ∧ (takeOutcome o s).choices = s.choices ∧ (takeOutcome o s).pending = s.pending := by
  unfold takeOutcome
  (repeat' split) <;> simp

@[simp] theorem takeOutcomes_frame (l : List LockOutcome) :
    (takeOutcomes l s).inReset = s.inReset ∧ (takeOutcomes l s).station = s.station ∧
    (takeOutcomes l s).bitRate = s.bitRate ∧ (takeOutcomes l s).lc = s.lc ∧ (takeOutcomes l s).au = s.au ∧
    (takeOutcomes l s).pm = s.pm ∧ (takeOutcomes l s).sc = s.sc ∧ (takeOutcomes l s).tc = s.tc ∧
    (takeOutcomes l s).choices = s.choices ∧ (takeOutcomes l s).pending = s.pending := by
  unfold takeOutcomes
  generalize l.filter (fun o => o.subject == s.station) = m
  induction m generalizing s with
  | nil => simp
  | cons o m ih => simpa using ih (takeOutcome o s)

@[simp] theorem revokeNotice_frame (r : HoldRecord) :
    (revokeNotice r s).inReset = s.inReset ∧ (revokeNotice r s).station = s.station ∧
    (revokeNotice r s).bitRate = s.bitRate ∧ (revokeNotice r s).lc = s.lc ∧ (revokeNotice r s).au = s.au ∧
    (revokeNotice r s).pm = s.pm ∧ (revokeNotice r s).sc = s.sc ∧ (revokeNotice r s).tc = s.tc ∧
    (revokeNotice r s).rt = s.rt ∧ (revokeNotice r s).oq = s.oq ∧ (revokeNotice r s).gl = s.gl ∧
    (revokeNotice r s).ri = s.ri ∧ (revokeNotice r s).choices = s.choices ∧ (revokeNotice r s).pending = s.pending := by
  unfold revokeNotice
  split <;> simp

@[simp] theorem revokeSlot_frame (o : Option HoldRecord) :
    (revokeSlot o s).inReset = s.inReset ∧ (revokeSlot o s).station = s.station ∧ (revokeSlot o s).bitRate = s.bitRate ∧
    (revokeSlot o s).lc = s.lc ∧ (revokeSlot o s).au = s.au ∧ (revokeSlot o s).pm = s.pm ∧ (revokeSlot o s).sc = s.sc ∧
    (revokeSlot o s).tc = s.tc ∧ (revokeSlot o s).rt = s.rt ∧ (revokeSlot o s).oq = s.oq ∧ (revokeSlot o s).gl = s.gl ∧
    (revokeSlot o s).ri = s.ri ∧ (revokeSlot o s).choices = s.choices ∧ (revokeSlot o s).pending = s.pending := by
  unfold revokeSlot
  split <;> simp

@[simp] theorem revokeNotices_frame :
    (revokeNotices s).inReset = s.inReset ∧ (revokeNotices s).station = s.station ∧ (revokeNotices s).bitRate = s.bitRate ∧
    (revokeNotices s).lc = s.lc ∧ (revokeNotices s).au = s.au ∧ (revokeNotices s).pm = s.pm ∧ (revokeNotices s).sc = s.sc ∧
    (revokeNotices s).tc = s.tc ∧ (revokeNotices s).rt = s.rt ∧ (revokeNotices s).oq = s.oq ∧ (revokeNotices s).gl = s.gl ∧
    (revokeNotices s).ri = s.ri ∧ (revokeNotices s).choices = s.choices ∧ (revokeNotices s).pending = s.pending := by
  unfold revokeNotices
  generalize s.rt.slots.toList = m
  induction m generalizing s with
  | nil => simp
  | cons o m ih => simpa using ih (revokeSlot o s)

@[simp] theorem revokeAll_frame :
    (revokeAll s).inReset = s.inReset ∧ (revokeAll s).station = s.station ∧ (revokeAll s).bitRate = s.bitRate ∧
    (revokeAll s).lc = s.lc ∧ (revokeAll s).au = s.au ∧ (revokeAll s).pm = s.pm ∧ (revokeAll s).sc = s.sc ∧
    (revokeAll s).tc = s.tc ∧ (revokeAll s).oq = s.oq ∧ (revokeAll s).gl = s.gl ∧ (revokeAll s).ri = s.ri ∧
    (revokeAll s).choices = s.choices ∧ (revokeAll s).pending = s.pending := by
  simp [revokeAll]

@[simp] theorem leaveHolds_frame :
    (leaveHolds s).inReset = s.inReset ∧ (leaveHolds s).station = s.station ∧ (leaveHolds s).bitRate = s.bitRate ∧
    (leaveHolds s).lc = s.lc ∧ (leaveHolds s).au = s.au ∧ (leaveHolds s).pm = s.pm ∧ (leaveHolds s).sc = s.sc ∧
    (leaveHolds s).tc = s.tc ∧ (leaveHolds s).oq = s.oq ∧ (leaveHolds s).gl = s.gl ∧ (leaveHolds s).ri = s.ri ∧
    (leaveHolds s).hp = s.hp ∧ (leaveHolds s).choices = s.choices ∧ (leaveHolds s).pending = s.pending := by
  simp [leaveHolds]

@[simp] theorem requestReturned_frame (b : Bool) (v : Nat) (c : Content) :
    (requestReturned b v c s).inReset = s.inReset ∧ (requestReturned b v c s).station = s.station ∧
    (requestReturned b v c s).bitRate = s.bitRate ∧ (requestReturned b v c s).lc = s.lc ∧
    (requestReturned b v c s).au = s.au ∧ (requestReturned b v c s).pm = s.pm ∧ (requestReturned b v c s).sc = s.sc ∧
    (requestReturned b v c s).tc = s.tc ∧ (requestReturned b v c s).choices = s.choices ∧
    (requestReturned b v c s).pending = s.pending := by
  unfold requestReturned
  (repeat' split) <;> simp

end Sys2Proof.Machine
end

