-- ==== Sys2Proof/Laws/PresenceFrames.lean ====
section
/-! SUPPORT. The frame of each operation of Machine/Presence.lean: the fields of State it leaves unchanged. -/

namespace Sys2Proof.Machine

variable (s : State)

@[simp] theorem decideEviction_frame :
    (decideEviction s).inReset = s.inReset ∧ (decideEviction s).station = s.station ∧
    (decideEviction s).bitRate = s.bitRate ∧ (decideEviction s).lc = s.lc ∧ (decideEviction s).au = s.au ∧
    (decideEviction s).pm = s.pm ∧ (decideEviction s).sc = s.sc ∧ (decideEviction s).tc = s.tc ∧
    (decideEviction s).rt = s.rt ∧ (decideEviction s).gl = s.gl ∧ (decideEviction s).ri = s.ri ∧
    (decideEviction s).hp = s.hp ∧ (decideEviction s).choices = s.choices ∧ (decideEviction s).pending = s.pending := by
  unfold decideEviction
  (repeat' split) <;> simp

@[simp] theorem removeStale_frame :
    (removeStale s).inReset = s.inReset ∧ (removeStale s).station = s.station ∧ (removeStale s).bitRate = s.bitRate ∧
    (removeStale s).lc = s.lc ∧ (removeStale s).au = s.au ∧ (removeStale s).pm = s.pm ∧ (removeStale s).sc = s.sc ∧
    (removeStale s).tc = s.tc ∧ (removeStale s).rt = s.rt ∧ (removeStale s).gl = s.gl ∧ (removeStale s).ri = s.ri ∧
    (removeStale s).hp = s.hp ∧ (removeStale s).choices = s.choices ∧ (removeStale s).pending = s.pending := by
  simp [removeStale]

@[simp] theorem revalidate_frame :
    (revalidate s).inReset = s.inReset ∧ (revalidate s).station = s.station ∧ (revalidate s).bitRate = s.bitRate ∧
    (revalidate s).lc = s.lc ∧ (revalidate s).au = s.au ∧ (revalidate s).sc = s.sc ∧ (revalidate s).tc = s.tc ∧
    (revalidate s).rt = s.rt ∧ (revalidate s).gl = s.gl ∧ (revalidate s).ri = s.ri ∧ (revalidate s).hp = s.hp ∧
    (revalidate s).choices = s.choices ∧ (revalidate s).pending = s.pending := by
  unfold revalidate
  (repeat' split) <;> simp

@[simp] theorem revalidateEvict_frame :
    (revalidateEvict s).inReset = s.inReset ∧ (revalidateEvict s).station = s.station ∧
    (revalidateEvict s).bitRate = s.bitRate ∧ (revalidateEvict s).lc = s.lc ∧ (revalidateEvict s).au = s.au ∧
    (revalidateEvict s).pm = s.pm ∧ (revalidateEvict s).sc = s.sc ∧ (revalidateEvict s).tc = s.tc ∧
    (revalidateEvict s).rt = s.rt ∧ (revalidateEvict s).gl = s.gl ∧ (revalidateEvict s).ri = s.ri ∧
    (revalidateEvict s).hp = s.hp ∧ (revalidateEvict s).choices = s.choices ∧ (revalidateEvict s).pending = s.pending := by
  unfold revalidateEvict
  split <;> simp

@[simp] theorem fenceNotices_frame (a b : Bool × Bool) :
    (fenceNotices a b s).inReset = s.inReset ∧ (fenceNotices a b s).station = s.station ∧
    (fenceNotices a b s).bitRate = s.bitRate ∧ (fenceNotices a b s).lc = s.lc ∧ (fenceNotices a b s).au = s.au ∧
    (fenceNotices a b s).pm = s.pm ∧ (fenceNotices a b s).sc = s.sc ∧ (fenceNotices a b s).tc = s.tc ∧
    (fenceNotices a b s).rt = s.rt ∧ (fenceNotices a b s).oq = s.oq ∧ (fenceNotices a b s).gl = s.gl ∧
    (fenceNotices a b s).ri = s.ri ∧ (fenceNotices a b s).choices = s.choices ∧ (fenceNotices a b s).pending = s.pending := by
  unfold fenceNotices
  (repeat' split) <;> simp

@[simp] theorem fenceGuards_frame (a b : Bool × Bool) :
    (fenceGuards a b s).inReset = s.inReset ∧ (fenceGuards a b s).station = s.station ∧ (fenceGuards a b s).bitRate = s.bitRate ∧
    (fenceGuards a b s).lc = s.lc ∧ (fenceGuards a b s).au = s.au ∧ (fenceGuards a b s).pm = s.pm ∧ (fenceGuards a b s).sc = s.sc ∧
    (fenceGuards a b s).tc = s.tc ∧ (fenceGuards a b s).rt = s.rt ∧ (fenceGuards a b s).oq = s.oq ∧ (fenceGuards a b s).ri = s.ri ∧
    (fenceGuards a b s).hp = s.hp ∧ (fenceGuards a b s).choices = s.choices ∧ (fenceGuards a b s).pending = s.pending := by
  unfold fenceGuards
  (repeat' split) <;> simp

@[simp] theorem fenceChanged_frame (a b : Bool × Bool) :
    (fenceChanged a b s).inReset = s.inReset ∧ (fenceChanged a b s).station = s.station ∧
    (fenceChanged a b s).bitRate = s.bitRate ∧ (fenceChanged a b s).lc = s.lc ∧ (fenceChanged a b s).au = s.au ∧
    (fenceChanged a b s).pm = s.pm ∧ (fenceChanged a b s).sc = s.sc ∧ (fenceChanged a b s).tc = s.tc ∧
    (fenceChanged a b s).rt = s.rt ∧ (fenceChanged a b s).oq = s.oq ∧ (fenceChanged a b s).ri = s.ri ∧
    (fenceChanged a b s).choices = s.choices ∧ (fenceChanged a b s).pending = s.pending := by
  simp [fenceChanged]

@[simp] theorem evaluateQuorum_frame :
    (evaluateQuorum s).inReset = s.inReset ∧ (evaluateQuorum s).station = s.station ∧
    (evaluateQuorum s).bitRate = s.bitRate ∧ (evaluateQuorum s).lc = s.lc ∧ (evaluateQuorum s).au = s.au ∧
    (evaluateQuorum s).sc = s.sc ∧ (evaluateQuorum s).tc = s.tc ∧ (evaluateQuorum s).rt = s.rt ∧
    (evaluateQuorum s).oq = s.oq ∧ (evaluateQuorum s).gl = s.gl ∧ (evaluateQuorum s).ri = s.ri ∧
    (evaluateQuorum s).hp = s.hp ∧ (evaluateQuorum s).choices = s.choices ∧ (evaluateQuorum s).pending = s.pending := by
  unfold evaluateQuorum
  split <;> simp

@[simp] theorem ownFrameApplied_frame (k : Kind) :
    (ownFrameApplied k s).inReset = s.inReset ∧ (ownFrameApplied k s).station = s.station ∧
    (ownFrameApplied k s).bitRate = s.bitRate ∧ (ownFrameApplied k s).lc = s.lc ∧ (ownFrameApplied k s).au = s.au ∧
    (ownFrameApplied k s).sc = s.sc ∧ (ownFrameApplied k s).tc = s.tc ∧ (ownFrameApplied k s).rt = s.rt ∧
    (ownFrameApplied k s).gl = s.gl ∧ (ownFrameApplied k s).ri = s.ri ∧ (ownFrameApplied k s).hp = s.hp ∧
    (ownFrameApplied k s).choices = s.choices ∧ (ownFrameApplied k s).pending = s.pending := by
  unfold ownFrameApplied
  dsimp only
  (repeat' split) <;> simp

@[simp] theorem memberHeard_frame (t : Station) :
    (memberHeard t s).inReset = s.inReset ∧ (memberHeard t s).station = s.station ∧ (memberHeard t s).bitRate = s.bitRate ∧
    (memberHeard t s).lc = s.lc ∧ (memberHeard t s).au = s.au ∧ (memberHeard t s).sc = s.sc ∧ (memberHeard t s).tc = s.tc ∧
    (memberHeard t s).rt = s.rt ∧ (memberHeard t s).oq = s.oq ∧ (memberHeard t s).gl = s.gl ∧ (memberHeard t s).ri = s.ri ∧
    (memberHeard t s).hp = s.hp ∧ (memberHeard t s).choices = s.choices ∧ (memberHeard t s).pending = s.pending := by
  unfold memberHeard
  split <;> simp

@[simp] theorem memberAdded_frame (t : Station) :
    (memberAdded t s).inReset = s.inReset ∧ (memberAdded t s).station = s.station ∧ (memberAdded t s).bitRate = s.bitRate ∧
    (memberAdded t s).lc = s.lc ∧ (memberAdded t s).au = s.au ∧ (memberAdded t s).sc = s.sc ∧ (memberAdded t s).tc = s.tc ∧
    (memberAdded t s).rt = s.rt ∧ (memberAdded t s).oq = s.oq ∧ (memberAdded t s).gl = s.gl ∧ (memberAdded t s).ri = s.ri ∧
    (memberAdded t s).choices = s.choices ∧ (memberAdded t s).pending = s.pending := by
  unfold memberAdded
  split <;> simp

@[simp] theorem memberRemoved_frame (t : Station) (why : LeftCause) :
    (memberRemoved t why s).inReset = s.inReset ∧ (memberRemoved t why s).station = s.station ∧
    (memberRemoved t why s).bitRate = s.bitRate ∧ (memberRemoved t why s).lc = s.lc ∧ (memberRemoved t why s).au = s.au ∧
    (memberRemoved t why s).sc = s.sc ∧ (memberRemoved t why s).tc = s.tc ∧ (memberRemoved t why s).rt = s.rt ∧
    (memberRemoved t why s).oq = s.oq ∧ (memberRemoved t why s).gl = s.gl ∧ (memberRemoved t why s).ri = s.ri ∧
    (memberRemoved t why s).choices = s.choices ∧ (memberRemoved t why s).pending = s.pending := by
  unfold memberRemoved
  split <;> simp

@[simp] theorem senderReport_frame (rep : Report) :
    (senderReport rep s).inReset = s.inReset ∧ (senderReport rep s).station = s.station ∧ (senderReport rep
    s).bitRate = s.bitRate ∧ (senderReport rep s).lc = s.lc ∧ (senderReport rep s).au = s.au ∧ (senderReport rep
    s).sc = s.sc ∧ (senderReport rep s).tc = s.tc ∧ (senderReport rep s).rt = s.rt ∧ (senderReport rep s).gl = s.gl
    ∧ (senderReport rep s).ri = s.ri ∧ (senderReport rep s).hp = s.hp ∧ (senderReport rep s).choices = s.choices ∧
    (senderReport rep s).pending = s.pending := by
  unfold senderReport
  (repeat' split) <;> simp

@[simp] theorem addedReport_frame (rep : Report) :
    (addedReport rep s).inReset = s.inReset ∧ (addedReport rep s).station = s.station ∧ (addedReport rep s).bitRate
    = s.bitRate ∧ (addedReport rep s).lc = s.lc ∧ (addedReport rep s).au = s.au ∧ (addedReport rep s).sc = s.sc ∧
    (addedReport rep s).tc = s.tc ∧ (addedReport rep s).rt = s.rt ∧ (addedReport rep s).gl = s.gl ∧ (addedReport rep
    s).ri = s.ri ∧ (addedReport rep s).oq = s.oq ∧ (addedReport rep s).choices = s.choices ∧ (addedReport rep
    s).pending = s.pending := by
  unfold addedReport
  (repeat' split) <;> simp

@[simp] theorem removedReport_frame (rep : Report) :
    (removedReport rep s).inReset = s.inReset ∧ (removedReport rep s).station = s.station ∧ (removedReport rep
    s).bitRate = s.bitRate ∧ (removedReport rep s).lc = s.lc ∧ (removedReport rep s).au = s.au ∧ (removedReport rep
    s).sc = s.sc ∧ (removedReport rep s).tc = s.tc ∧ (removedReport rep s).rt = s.rt ∧ (removedReport rep s).gl =
    s.gl ∧ (removedReport rep s).ri = s.ri ∧ (removedReport rep s).oq = s.oq ∧ (removedReport rep s).choices =
    s.choices ∧ (removedReport rep s).pending = s.pending := by
  unfold removedReport
  (repeat' split) <;> simp

@[simp] theorem presenceReport_frame (rep : Report) :
    (presenceReport rep s).inReset = s.inReset ∧ (presenceReport rep s).station = s.station ∧
    (presenceReport rep s).bitRate = s.bitRate ∧ (presenceReport rep s).lc = s.lc ∧ (presenceReport rep s).au = s.au ∧
    (presenceReport rep s).sc = s.sc ∧ (presenceReport rep s).tc = s.tc ∧ (presenceReport rep s).rt = s.rt ∧
    (presenceReport rep s).ri = s.ri ∧ (presenceReport rep s).choices = s.choices ∧
    (presenceReport rep s).pending = s.pending := by
  simp [presenceReport]

@[simp] theorem presenceEntry_frame :
    (presenceEntry s).inReset = s.inReset ∧ (presenceEntry s).station = s.station ∧ (presenceEntry s).bitRate = s.bitRate ∧
    (presenceEntry s).lc = s.lc ∧ (presenceEntry s).au = s.au ∧ (presenceEntry s).sc = s.sc ∧ (presenceEntry s).tc = s.tc ∧
    (presenceEntry s).rt = s.rt ∧ (presenceEntry s).oq = s.oq ∧ (presenceEntry s).gl = s.gl ∧ (presenceEntry s).ri = s.ri ∧
    (presenceEntry s).choices = s.choices ∧ (presenceEntry s).pending = s.pending := by
  unfold presenceEntry
  dsimp only
  (repeat' split) <;> simp

end Sys2Proof.Machine
end

