-- ==== Sys2Proof/Laws/StationFrames.lean ====
section
/-! SUPPORT. The frame of each operation of Machine/Apply.lean and Machine/Station.lean: the fields of State it leaves unchanged. -/

namespace Sys2Proof.Machine

variable (s : State)

@[simp] theorem enterState_frame (x : StationState) :
    (enterState x s).inReset = s.inReset ∧ (enterState x s).station = s.station ∧ (enterState x s).bitRate = s.bitRate ∧
    (enterState x s).ri = s.ri ∧ (enterState x s).hp = s.hp ∧ (enterState x s).choices = s.choices ∧
    (enterState x s).pending = s.pending := by
  unfold enterState
  dsimp only
  (repeat' split) <;> simp

@[simp] theorem drop_frame (c : DropCause) :
    (drop c s).inReset = s.inReset ∧ (drop c s).station = s.station ∧ (drop c s).bitRate = s.bitRate ∧ (drop c s).ri = s.ri ∧
    (drop c s).choices = s.choices ∧ (drop c s).pending = s.pending := by
  unfold drop
  split <;> simp

@[simp] theorem keepFeeding_frame :
    (keepFeeding s).inReset = s.inReset ∧ (keepFeeding s).station = s.station ∧ (keepFeeding s).bitRate = s.bitRate ∧
    (keepFeeding s).lc = s.lc ∧ (keepFeeding s).au = s.au ∧ (keepFeeding s).pm = s.pm ∧ (keepFeeding s).sc = s.sc ∧
    (keepFeeding s).tc = s.tc ∧ (keepFeeding s).rt = s.rt ∧ (keepFeeding s).gl = s.gl ∧ (keepFeeding s).ri = s.ri ∧
    (keepFeeding s).hp = s.hp ∧ (keepFeeding s).choices = s.choices ∧ (keepFeeding s).pending = s.pending := by
  unfold keepFeeding
  (repeat' split) <;> simp

@[simp] theorem examinePins_frame :
    (examinePins s).inReset = s.inReset ∧ (examinePins s).station = s.station ∧ (examinePins s).bitRate = s.bitRate ∧
    (examinePins s).lc = s.lc ∧ (examinePins s).au = s.au ∧ (examinePins s).pm = s.pm ∧ (examinePins s).sc = s.sc ∧
    (examinePins s).tc = s.tc ∧ (examinePins s).choices = s.choices ∧ (examinePins s).pending = s.pending := by
  unfold examinePins
  generalize hs : s.withRi _ = u
  have hu : ∀ m : List Pin, ∀ v : State, 
      (m.foldl (fun t p => evaluatePin p t) v).inReset = v.inReset ∧ (m.foldl (fun t p => evaluatePin p t) v).station = v.station ∧ (m.foldl (fun t p => evaluatePin p t) v).bitRate = v.bitRate ∧ (m.foldl (fun t p => evaluatePin p t) v).lc = v.lc ∧ (m.foldl (fun t p => evaluatePin p t) v).au = v.au ∧ (m.foldl (fun t p => evaluatePin p t) v).pm = v.pm ∧ (m.foldl (fun t p => evaluatePin p t) v).sc = v.sc ∧ (m.foldl (fun t p => evaluatePin p t) v).tc = v.tc ∧ (m.foldl (fun t p => evaluatePin p t) v).choices = v.choices ∧ (m.foldl (fun t p => evaluatePin p t) v).pending = v.pending := by
    intro m
    induction m with
    | nil => simp
    | cons p m ih => intro v; simpa using ih (evaluatePin p v)
  subst hs
  simpa using hu (List.finRange 4) (s.withRi _)

@[simp] theorem enterMember_frame (k : NoticeKind) :
    (enterMember k s).inReset = s.inReset ∧ (enterMember k s).station = s.station ∧ (enterMember k s).bitRate = s.bitRate ∧
    (enterMember k s).lc = s.lc ∧ (enterMember k s).au = s.au ∧ (enterMember k s).sc = s.sc ∧ (enterMember k s).tc = s.tc ∧
    (enterMember k s).choices = s.choices ∧ (enterMember k s).pending = s.pending := by
  simp [enterMember]

@[simp] theorem found_frame :
    (found s).inReset = s.inReset ∧ (found s).station = s.station ∧ (found s).bitRate = s.bitRate ∧
    (found s).choices = s.choices ∧ (found s).pending = s.pending := by
  simp [found]

@[simp] theorem ask_frame :
    (ask s).inReset = s.inReset ∧ (ask s).station = s.station ∧ (ask s).bitRate = s.bitRate ∧ (ask s).ri = s.ri ∧
    (ask s).hp = s.hp ∧ (ask s).choices = s.choices ∧ (ask s).pending = s.pending := by
  simp [ask]

@[simp] theorem giveUpJoin_frame (k : NoticeKind) (t : Option Station) :
    (giveUpJoin k t s).inReset = s.inReset ∧ (giveUpJoin k t s).station = s.station ∧
    (giveUpJoin k t s).bitRate = s.bitRate ∧ (giveUpJoin k t s).ri = s.ri ∧ (giveUpJoin k t s).choices = s.choices ∧
    (giveUpJoin k t s).pending = s.pending := by
  simp [giveUpJoin]

@[simp] theorem otherFound_frame (f : Frame) :
    (otherFound f s).inReset = s.inReset ∧ (otherFound f s).station = s.station ∧ (otherFound f s).bitRate = s.bitRate ∧
    (otherFound f s).ri = s.ri ∧ (otherFound f s).choices = s.choices ∧ (otherFound f s).pending = s.pending := by
  unfold otherFound
  split <;> simp

@[simp] theorem enterCollecting_frame (q : BusSeq) (x : PageZero) :
    (enterCollecting q x s).inReset = s.inReset ∧ (enterCollecting q x s).station = s.station ∧
    (enterCollecting q x s).bitRate = s.bitRate ∧ (enterCollecting q x s).ri = s.ri ∧ (enterCollecting q x s).hp = s.hp ∧
    (enterCollecting q x s).choices = s.choices ∧ (enterCollecting q x s).pending = s.pending := by
  simp [enterCollecting]

@[simp] theorem observePageZero_frame (f : Frame) :
    (observePageZero f s).inReset = s.inReset ∧ (observePageZero f s).station = s.station ∧
    (observePageZero f s).bitRate = s.bitRate ∧ (observePageZero f s).ri = s.ri ∧ (observePageZero f s).hp = s.hp ∧
    (observePageZero f s).choices = s.choices ∧ (observePageZero f s).pending = s.pending := by
  unfold observePageZero
  (repeat' split) <;> simp

@[simp] theorem observe_frame (own : Bool) (f : Frame) :
    (observe own f s).inReset = s.inReset ∧ (observe own f s).station = s.station ∧ (observe own f s).bitRate = s.bitRate ∧
    (observe own f s).choices = s.choices ∧ (observe own f s).pending = s.pending := by
  unfold observe
  (repeat' split) <;> simp

@[simp] theorem joinAbandoned_frame (c : Content) :
    (joinAbandoned c s).inReset = s.inReset ∧ (joinAbandoned c s).station = s.station ∧
    (joinAbandoned c s).bitRate = s.bitRate ∧ (joinAbandoned c s).ri = s.ri ∧ (joinAbandoned c s).choices = s.choices ∧
    (joinAbandoned c s).pending = s.pending := by
  unfold joinAbandoned
  split <;> simp

@[simp] theorem staleDepartLeft_frame :
    (staleDepartLeft s).inReset = s.inReset ∧ (staleDepartLeft s).station = s.station ∧
    (staleDepartLeft s).bitRate = s.bitRate ∧ (staleDepartLeft s).lc = s.lc ∧ (staleDepartLeft s).au = s.au ∧
    (staleDepartLeft s).pm = s.pm ∧ (staleDepartLeft s).tc = s.tc ∧ (staleDepartLeft s).rt = s.rt ∧
    (staleDepartLeft s).gl = s.gl ∧ (staleDepartLeft s).ri = s.ri ∧ (staleDepartLeft s).hp = s.hp ∧
    (staleDepartLeft s).choices = s.choices ∧ (staleDepartLeft s).pending = s.pending := by
  unfold staleDepartLeft
  dsimp only
  (repeat' split) <;> simp

@[simp] theorem ownDepart_frame (rep : Report) :
    (ownDepart rep s).inReset = s.inReset ∧ (ownDepart rep s).station = s.station ∧ (ownDepart rep s).bitRate = s.bitRate ∧
    (ownDepart rep s).ri = s.ri ∧ (ownDepart rep s).choices = s.choices ∧ (ownDepart rep s).pending = s.pending := by
  unfold ownDepart
  (repeat' split) <;> simp

@[simp] theorem ownEnrol_frame (rep : Report) :
    (ownEnrol rep s).inReset = s.inReset ∧ (ownEnrol rep s).station = s.station ∧ (ownEnrol rep s).bitRate = s.bitRate ∧
    (ownEnrol rep s).choices = s.choices ∧ (ownEnrol rep s).pending = s.pending := by
  unfold ownEnrol
  (repeat' split) <;> simp

@[simp] theorem roundBroken_frame (rep : Report) :
    (roundBroken rep s).inReset = s.inReset ∧ (roundBroken rep s).station = s.station ∧
    (roundBroken rep s).bitRate = s.bitRate ∧ (roundBroken rep s).ri = s.ri ∧ (roundBroken rep s).hp = s.hp ∧
    (roundBroken rep s).choices = s.choices ∧ (roundBroken rep s).pending = s.pending := by
  unfold roundBroken
  (repeat' split) <;> simp

@[simp] theorem collectionDone_frame :
    (collectionDone s).inReset = s.inReset ∧ (collectionDone s).station = s.station ∧
    (collectionDone s).bitRate = s.bitRate ∧ (collectionDone s).ri = s.ri ∧ (collectionDone s).hp = s.hp ∧
    (collectionDone s).choices = s.choices ∧ (collectionDone s).pending = s.pending := by
  unfold collectionDone
  split <;> simp

@[simp] theorem stationReport_frame (rep : Report) :
    (stationReport rep s).inReset = s.inReset ∧ (stationReport rep s).station = s.station ∧
    (stationReport rep s).bitRate = s.bitRate ∧ (stationReport rep s).choices = s.choices ∧
    (stationReport rep s).pending = s.pending := by
  unfold stationReport
  split <;> simp

@[simp] theorem departHolds_frame (rep : Report) :
    (departHolds rep s).inReset = s.inReset ∧ (departHolds rep s).station = s.station ∧
    (departHolds rep s).bitRate = s.bitRate ∧ (departHolds rep s).lc = s.lc ∧ (departHolds rep s).au = s.au ∧
    (departHolds rep s).pm = s.pm ∧ (departHolds rep s).sc = s.sc ∧ (departHolds rep s).tc = s.tc ∧
    (departHolds rep s).oq = s.oq ∧ (departHolds rep s).gl = s.gl ∧ (departHolds rep s).ri = s.ri ∧
    (departHolds rep s).choices = s.choices ∧ (departHolds rep s).pending = s.pending := by
  unfold departHolds
  split <;> simp

@[simp] theorem presenceReactions_frame (rep : Report) :
    (presenceReactions rep s).inReset = s.inReset ∧ (presenceReactions rep s).station = s.station ∧
    (presenceReactions rep s).bitRate = s.bitRate ∧ (presenceReactions rep s).ri = s.ri ∧
    (presenceReactions rep s).choices = s.choices ∧ (presenceReactions rep s).pending = s.pending := by
  unfold presenceReactions
  (repeat' split) <;> simp

@[simp] theorem reactApplied_frame (rep : Report) :
    (reactApplied rep s).inReset = s.inReset ∧ (reactApplied rep s).station = s.station ∧
    (reactApplied rep s).bitRate = s.bitRate ∧ (reactApplied rep s).choices = s.choices ∧
    (reactApplied rep s).pending = s.pending := by
  unfold reactApplied
  dsimp only
  (repeat' split) <;> simp

@[simp] theorem reactOther_frame (rep : Report) :
    (reactOther rep s).inReset = s.inReset ∧ (reactOther rep s).station = s.station ∧
    (reactOther rep s).bitRate = s.bitRate ∧ (reactOther rep s).choices = s.choices ∧
    (reactOther rep s).pending = s.pending := by
  unfold reactOther
  split <;> simp

@[simp] theorem handOn_frame (rep : Report) :
    (handOn rep s).inReset = s.inReset ∧ (handOn rep s).station = s.station ∧ (handOn rep s).bitRate = s.bitRate ∧
    (handOn rep s).choices = s.choices ∧ (handOn rep s).pending = s.pending := by
  unfold handOn
  split <;> simp

@[simp] theorem ownAccepted_frame (k : Kind) :
    (ownAccepted k s).inReset = s.inReset ∧ (ownAccepted k s).station = s.station ∧ (ownAccepted k s).bitRate = s.bitRate ∧
    (ownAccepted k s).au = s.au ∧ (ownAccepted k s).sc = s.sc ∧ (ownAccepted k s).tc = s.tc ∧ (ownAccepted k s).rt = s.rt ∧
    (ownAccepted k s).gl = s.gl ∧ (ownAccepted k s).ri = s.ri ∧ (ownAccepted k s).hp = s.hp ∧
    (ownAccepted k s).choices = s.choices ∧ (ownAccepted k s).pending = s.pending := by
  unfold ownAccepted
  split <;> simp

@[simp] theorem acceptFrame_frame (own : Bool) (f : Frame) :
    (acceptFrame own f s).inReset = s.inReset ∧ (acceptFrame own f s).station = s.station ∧
    (acceptFrame own f s).bitRate = s.bitRate ∧ (acceptFrame own f s).choices = s.choices ∧
    (acceptFrame own f s).pending = s.pending := by
  unfold acceptFrame
  (repeat' split) <;> simp

end Sys2Proof.Machine
end

