-- ==== Sys2Proof/Laws/LineFrames.lean ====
section
/-! SUPPORT. The frame of each operation of the Line Controller, of the timers and of the clock: the fields of State it leaves unchanged. -/

namespace Sys2Proof.Machine

variable (s : State)

@[simp] theorem selectEntry_frame :
    (selectEntry s).inReset = s.inReset ∧ (selectEntry s).station = s.station ∧ (selectEntry s).bitRate = s.bitRate ∧
    (selectEntry s).au = s.au ∧ (selectEntry s).pm = s.pm ∧ (selectEntry s).sc = s.sc ∧ (selectEntry s).tc = s.tc ∧
    (selectEntry s).rt = s.rt ∧ (selectEntry s).gl = s.gl ∧ (selectEntry s).ri = s.ri ∧ (selectEntry s).hp = s.hp ∧
    (selectEntry s).choices = s.choices ∧ (selectEntry s).pending = s.pending := by
  unfold selectEntry
  split <;> simp

@[simp] theorem dropRequest_frame (o : Owner) :
    (dropRequest o s).inReset = s.inReset ∧ (dropRequest o s).station = s.station ∧ (dropRequest o s).bitRate = s.bitRate ∧
    (dropRequest o s).lc = s.lc ∧ (dropRequest o s).au = s.au ∧ (dropRequest o s).pm = s.pm ∧ (dropRequest o s).sc = s.sc ∧
    (dropRequest o s).tc = s.tc ∧ (dropRequest o s).oq = s.oq ∧ (dropRequest o s).gl = s.gl ∧ (dropRequest o s).ri = s.ri ∧
    (dropRequest o s).hp = s.hp ∧ (dropRequest o s).choices = s.choices ∧ (dropRequest o s).pending = s.pending := by
  unfold dropRequest
  (repeat' split) <;> simp

@[simp] theorem returnAttempt_frame (v : Bool) :
    (returnAttempt v s).inReset = s.inReset ∧ (returnAttempt v s).station = s.station ∧
    (returnAttempt v s).bitRate = s.bitRate ∧ (returnAttempt v s).choices = s.choices ∧
    (returnAttempt v s).pending = s.pending := by
  unfold returnAttempt
  dsimp only
  (repeat' split) <;> simp

@[simp] theorem reportMute_frame (b : Bool) :
    (reportMute b s).inReset = s.inReset ∧ (reportMute b s).station = s.station ∧ (reportMute b s).bitRate = s.bitRate ∧
    (reportMute b s).ri = s.ri ∧ (reportMute b s).choices = s.choices ∧ (reportMute b s).pending = s.pending := by
  unfold reportMute
  split <;> simp

@[simp] theorem reportDuplicate_frame (b : Bool) :
    (reportDuplicate b s).inReset = s.inReset ∧ (reportDuplicate b s).station = s.station ∧
    (reportDuplicate b s).bitRate = s.bitRate ∧ (reportDuplicate b s).ri = s.ri ∧ (reportDuplicate b s).choices = s.choices ∧
    (reportDuplicate b s).pending = s.pending := by
  unfold reportDuplicate
  split <;> simp

@[simp] theorem countFault_frame (t : Option Station) :
    (countFault t s).inReset = s.inReset ∧ (countFault t s).station = s.station ∧ (countFault t s).bitRate = s.bitRate ∧
    (countFault t s).au = s.au ∧ (countFault t s).pm = s.pm ∧ (countFault t s).sc = s.sc ∧ (countFault t s).tc = s.tc ∧
    (countFault t s).rt = s.rt ∧ (countFault t s).oq = s.oq ∧ (countFault t s).gl = s.gl ∧ (countFault t s).ri = s.ri ∧
    (countFault t s).hp = s.hp ∧ (countFault t s).choices = s.choices ∧ (countFault t s).pending = s.pending := by
  unfold countFault
  (repeat' split) <;> simp

@[simp] theorem countClean_frame :
    (countClean s).inReset = s.inReset ∧ (countClean s).station = s.station ∧ (countClean s).bitRate = s.bitRate ∧
    (countClean s).au = s.au ∧ (countClean s).pm = s.pm ∧ (countClean s).sc = s.sc ∧ (countClean s).tc = s.tc ∧
    (countClean s).rt = s.rt ∧ (countClean s).oq = s.oq ∧ (countClean s).gl = s.gl ∧ (countClean s).ri = s.ri ∧
    (countClean s).hp = s.hp ∧ (countClean s).choices = s.choices ∧ (countClean s).pending = s.pending := by
  unfold countClean
  split <;> simp

@[simp] theorem countTransmit_frame (b : Bool) :
    (countTransmit b s).inReset = s.inReset ∧ (countTransmit b s).station = s.station ∧
    (countTransmit b s).bitRate = s.bitRate ∧ (countTransmit b s).au = s.au ∧ (countTransmit b s).pm = s.pm ∧
    (countTransmit b s).sc = s.sc ∧ (countTransmit b s).tc = s.tc ∧ (countTransmit b s).rt = s.rt ∧
    (countTransmit b s).oq = s.oq ∧ (countTransmit b s).gl = s.gl ∧ (countTransmit b s).ri = s.ri ∧
    (countTransmit b s).hp = s.hp ∧ (countTransmit b s).choices = s.choices ∧ (countTransmit b s).pending = s.pending := by
  unfold countTransmit
  split <;> simp

@[simp] theorem countCollision_frame (b : Bool) :
    (countCollision b s).inReset = s.inReset ∧ (countCollision b s).station = s.station ∧
    (countCollision b s).bitRate = s.bitRate ∧ (countCollision b s).au = s.au ∧ (countCollision b s).pm = s.pm ∧
    (countCollision b s).sc = s.sc ∧ (countCollision b s).tc = s.tc ∧ (countCollision b s).rt = s.rt ∧
    (countCollision b s).oq = s.oq ∧ (countCollision b s).gl = s.gl ∧ (countCollision b s).ri = s.ri ∧
    (countCollision b s).hp = s.hp ∧ (countCollision b s).choices = s.choices ∧ (countCollision b s).pending = s.pending := by
  simp [countCollision]

@[simp] theorem keepRead_frame (l : List Cell) :
    (keepRead l s).inReset = s.inReset ∧ (keepRead l s).station = s.station ∧ (keepRead l s).bitRate = s.bitRate ∧
    (keepRead l s).au = s.au ∧ (keepRead l s).pm = s.pm ∧ (keepRead l s).sc = s.sc ∧ (keepRead l s).tc = s.tc ∧
    (keepRead l s).rt = s.rt ∧ (keepRead l s).oq = s.oq ∧ (keepRead l s).gl = s.gl ∧ (keepRead l s).ri = s.ri ∧
    (keepRead l s).hp = s.hp ∧ (keepRead l s).choices = s.choices ∧ (keepRead l s).pending = s.pending := by
  simp [keepRead]

@[simp] theorem keepSent_frame (f : Frame) (l : List Cell) :
    (keepSent f l s).inReset = s.inReset ∧ (keepSent f l s).station = s.station ∧ (keepSent f l s).bitRate = s.bitRate ∧
    (keepSent f l s).au = s.au ∧ (keepSent f l s).pm = s.pm ∧ (keepSent f l s).sc = s.sc ∧ (keepSent f l s).tc = s.tc ∧
    (keepSent f l s).rt = s.rt ∧ (keepSent f l s).oq = s.oq ∧ (keepSent f l s).gl = s.gl ∧ (keepSent f l s).ri = s.ri ∧
    (keepSent f l s).hp = s.hp ∧ (keepSent f l s).choices = s.choices ∧ (keepSent f l s).pending = s.pending := by
  simp [keepSent]

@[simp] theorem setLine_frame (x : LineState) :
    (setLine x s).inReset = s.inReset ∧ (setLine x s).station = s.station ∧ (setLine x s).bitRate = s.bitRate ∧
    (setLine x s).au = s.au ∧ (setLine x s).pm = s.pm ∧ (setLine x s).sc = s.sc ∧ (setLine x s).tc = s.tc ∧
    (setLine x s).rt = s.rt ∧ (setLine x s).oq = s.oq ∧ (setLine x s).gl = s.gl ∧ (setLine x s).ri = s.ri ∧
    (setLine x s).hp = s.hp ∧ (setLine x s).choices = s.choices ∧ (setLine x s).pending = s.pending := by
  simp [setLine]

@[simp] theorem startFrame_frame :
    (startFrame s).inReset = s.inReset ∧ (startFrame s).station = s.station ∧ (startFrame s).bitRate = s.bitRate ∧
    (startFrame s).au = s.au ∧ (startFrame s).pm = s.pm ∧ (startFrame s).tc = s.tc ∧ (startFrame s).rt = s.rt ∧
    (startFrame s).oq = s.oq ∧ (startFrame s).gl = s.gl ∧ (startFrame s).ri = s.ri ∧ (startFrame s).hp = s.hp ∧
    (startFrame s).choices = s.choices ∧ (startFrame s).pending = s.pending := by
  unfold startFrame
  (repeat' split) <;> simp

@[simp] theorem voidOwn_frame (f : Frame) (rd : Reading) :
    (voidOwn f rd s).inReset = s.inReset ∧ (voidOwn f rd s).station = s.station ∧ (voidOwn f rd s).bitRate = s.bitRate ∧
    (voidOwn f rd s).choices = s.choices ∧ (voidOwn f rd s).pending = s.pending := by
  simp [voidOwn]

@[simp] theorem endReceived_frame (x : Received) (rd : Reading) :
    (endReceived x rd s).inReset = s.inReset ∧ (endReceived x rd s).station = s.station ∧
    (endReceived x rd s).bitRate = s.bitRate ∧ (endReceived x rd s).ri = s.ri ∧ (endReceived x rd s).choices = s.choices ∧
    (endReceived x rd s).pending = s.pending := by
  unfold endReceived
  split <;> simp

@[simp] theorem acceptOwn_frame (f : Frame) (rd : Reading) :
    (acceptOwn f rd s).inReset = s.inReset ∧ (acceptOwn f rd s).station = s.station ∧
    (acceptOwn f rd s).bitRate = s.bitRate ∧ (acceptOwn f rd s).choices = s.choices ∧
    (acceptOwn f rd s).pending = s.pending := by
  simp [acceptOwn]

@[simp] theorem acceptedFrame_frame (k : Kind) (rd : Reading) :
    (acceptedFrame k rd s).inReset = s.inReset ∧ (acceptedFrame k rd s).station = s.station ∧
    (acceptedFrame k rd s).bitRate = s.bitRate ∧ (acceptedFrame k rd s).choices = s.choices ∧
    (acceptedFrame k rd s).pending = s.pending := by
  unfold acceptedFrame
  (repeat' split) <;> simp

@[simp] theorem contactDue_frame :
    (contactDue s).inReset = s.inReset ∧ (contactDue s).station = s.station ∧ (contactDue s).bitRate = s.bitRate ∧
    (contactDue s).lc = s.lc ∧ (contactDue s).au = s.au ∧ (contactDue s).sc = s.sc ∧ (contactDue s).tc = s.tc ∧
    (contactDue s).rt = s.rt ∧ (contactDue s).gl = s.gl ∧ (contactDue s).ri = s.ri ∧ (contactDue s).hp = s.hp ∧
    (contactDue s).choices = s.choices ∧ (contactDue s).pending = s.pending := by
  unfold contactDue
  split <;> simp

@[simp] theorem promoteBeacon_frame :
    (promoteBeacon s).inReset = s.inReset ∧ (promoteBeacon s).station = s.station ∧ (promoteBeacon s).bitRate = s.bitRate ∧
    (promoteBeacon s).lc = s.lc ∧ (promoteBeacon s).au = s.au ∧ (promoteBeacon s).sc = s.sc ∧ (promoteBeacon s).tc = s.tc ∧
    (promoteBeacon s).rt = s.rt ∧ (promoteBeacon s).gl = s.gl ∧ (promoteBeacon s).ri = s.ri ∧ (promoteBeacon s).hp = s.hp ∧
    (promoteBeacon s).choices = s.choices ∧ (promoteBeacon s).pending = s.pending := by
  simp [promoteBeacon]

@[simp] theorem contactFence_frame :
    (contactFence s).inReset = s.inReset ∧ (contactFence s).station = s.station ∧ (contactFence s).bitRate = s.bitRate ∧
    (contactFence s).lc = s.lc ∧ (contactFence s).au = s.au ∧ (contactFence s).sc = s.sc ∧ (contactFence s).tc = s.tc ∧
    (contactFence s).rt = s.rt ∧ (contactFence s).oq = s.oq ∧ (contactFence s).ri = s.ri ∧
    (contactFence s).choices = s.choices ∧ (contactFence s).pending = s.pending := by
  simp [contactFence]

@[simp] theorem roundOut_frame :
    (roundOut s).inReset = s.inReset ∧ (roundOut s).station = s.station ∧ (roundOut s).bitRate = s.bitRate ∧
    (roundOut s).ri = s.ri ∧ (roundOut s).choices = s.choices ∧ (roundOut s).pending = s.pending := by
  unfold roundOut
  split <;> simp

@[simp] theorem expireHold_frame (r : HoldRecord) :
    (expireHold r s).inReset = s.inReset ∧ (expireHold r s).station = s.station ∧ (expireHold r s).bitRate = s.bitRate ∧
    (expireHold r s).lc = s.lc ∧ (expireHold r s).au = s.au ∧ (expireHold r s).pm = s.pm ∧ (expireHold r s).sc = s.sc ∧
    (expireHold r s).tc = s.tc ∧ (expireHold r s).ri = s.ri ∧ (expireHold r s).choices = s.choices ∧
    (expireHold r s).pending = s.pending := by
  simp [expireHold]

@[simp] theorem passTime_frame :
    (passTime s).inReset = s.inReset ∧ (passTime s).station = s.station ∧ (passTime s).bitRate = s.bitRate ∧
    (passTime s).lc = s.lc ∧ (passTime s).au = s.au ∧ (passTime s).tc = s.tc ∧ (passTime s).oq = s.oq ∧
    (passTime s).choices = s.choices ∧ (passTime s).pending = s.pending := by
  unfold passTime tick
  split <;> simp

end Sys2Proof.Machine
end

