-- ==== Sys2Proof/Laws/Drop.lean ====
section
/-! SUPPORT. What a change of station state and a drop do to each block. -/

namespace Sys2Proof.Machine

variable (s : State)

/-! ### Notices -/

theorem placeNotice_notices (x : Notice) :
    (placeNotice x s).hp.notices = if s.hp.notices.length < 16 then s.hp.notices ++ [x] else s.hp.notices := by
  unfold placeNotice
  split <;> rfl

/-! ### Notices placed in order -/

@[simp] theorem HostPort.noticed_nil (p : HostPort) : p.noticed [] = p := by
  simp [HostPort.noticed]

/-- Notices placed after others are the whole list placed (R198). -/
theorem HostPort.noticed_append (p : HostPort) (a b : List Notice) : (p.noticed a).noticed b = p.noticed (a ++ b) := by
  by_cases h : 16 - p.notices.length < a.length
  · have h1 : 16 - (p.notices.length + min (16 - p.notices.length) a.length) = 0 := by omega
    have h2 : 16 - p.notices.length < a.length + b.length := by omega
    have h3 : List.take (16 - p.notices.length) (a ++ b) = List.take (16 - p.notices.length) a := by
      rw [List.take_append_of_le_length (by omega)]
    simp [HostPort.noticed, h, h1, h2, h3]
  · have h1 : 16 - (p.notices.length + a.length) = 16 - p.notices.length - a.length := by omega
    have h2 : List.take (16 - p.notices.length) a = a := List.take_of_length_le (by omega)
    have h3 : List.take (16 - p.notices.length) (a ++ b) = a ++ List.take (16 - p.notices.length - a.length) b := by
      rw [List.take_append, h2]
    have h4 : (16 - p.notices.length - a.length < b.length) ↔ (16 - p.notices.length < a.length + b.length) := by omega
    simp [HostPort.noticed, h, h1, h2, h3, h4]

/-- The one lemma of placeNotice (R198). -/
theorem placeNotice_hp (x : Notice) : (placeNotice x s).hp = s.hp.noticed [x] := by
  unfold placeNotice
  split
  · next h =>
    have h1 : 16 - s.hp.notices.length = (15 - s.hp.notices.length) + 1 := by omega
    simp [HostPort.noticed, h1]
  · next h =>
    have h1 : 16 - s.hp.notices.length = 0 := by omega
    simp [HostPort.noticed, h1]

theorem lockNotice_hp (k : NoticeKind) (l : Lock) (g : Option Generation) (q : Qualifier) :
    (lockNotice k l g q s).hp = s.hp.noticed
      [{ kind := k, lock := some l, station := none, generation := g, qualifier := q, busSeq := s.au.replica.busSeq }] :=
  placeNotice_hp s _

theorem stationNotice_hp (k : NoticeKind) (t : Option Station) (q : Qualifier) :
    (stationNotice k t q s).hp = s.hp.noticed
      [{ kind := k, lock := none, station := t, generation := none, qualifier := q, busSeq := s.au.replica.busSeq }] :=
  placeNotice_hp s _

/-- The notices of one change of the fence set (R62). -/
theorem fenceNotices_hp (a b : Bool × Bool) :
    (fenceNotices a b s).hp = s.hp.noticed (fenceReport a b s.au.replica.busSeq) := by
  obtain ⟨a1, a2⟩ := a
  obtain ⟨b1, b2⟩ := b
  cases a1 <;> cases a2 <;> cases b1 <;> cases b2 <;>
    simp [fenceNotices, fenceReport, stationNotice_hp, HostPort.noticed_append, fenceNoticeOf, stationNoticeOf]

/-- The REVOKED notice of a slot (R124, R126). -/
theorem revokeSlot_hp (o : Option HoldRecord) :
    (revokeSlot o s).hp = s.hp.noticed ((o.map (revokedNotice s.au.replica.busSeq)).getD []) := by
  cases o with
  | none => simp [revokeSlot]
  | some r => cases h : r.state <;> simp [revokeSlot, revokeNotice, revokedNotice, h, lockNotice_hp]

theorem revokeSlots_hp (l : List (Option HoldRecord)) (t : State) (h : t.au = s.au) :
    (l.foldl (fun t o => revokeSlot o t) t).hp
      = t.hp.noticed (l.flatMap fun o => (o.map (revokedNotice s.au.replica.busSeq)).getD []) := by
  induction l generalizing t with
  | nil => simp
  | cons o l ih =>
    have h1 : (revokeSlot o t).au = t.au := by simp
    rw [List.foldl_cons, ih _ (by rw [h1, h]), revokeSlot_hp, h, HostPort.noticed_append, List.flatMap_cons]

/-- The REVOKED notices of the hold list, in ascending slot order (R124, R125). -/
theorem revokeNotices_hp : (revokeNotices s).hp = s.hp.noticed (revokedNotices s.au.replica.busSeq s.rt) := by
  unfold revokeNotices
  rw [revokeSlots_hp s _ s rfl]
  congr 1
  unfold revokedNotices
  have h : s.rt.slots.toList = (List.finRange 8).map fun t => s.rt.slots[t] := by
    apply List.ext_getElem <;> simp
  rw [h, List.flatMap_map]

theorem placeNotice_keeps (x : Notice) : s.hp.notices <+: (placeNotice x s).hp.notices := by
  rw [placeNotice_notices]
  split
  · exact List.prefix_append _ _
  · exact List.prefix_rfl

theorem lockNotice_keeps (k : NoticeKind) (l : Lock) (g : Option Generation) (q : Qualifier) :
    s.hp.notices <+: (lockNotice k l g q s).hp.notices := placeNotice_keeps s _

theorem stationNotice_keeps (k : NoticeKind) (t : Option Station) (q : Qualifier) :
    s.hp.notices <+: (stationNotice k t q s).hp.notices := placeNotice_keeps s _

theorem lockNotice_room (k : NoticeKind) (l : Lock) (g : Option Generation) (q : Qualifier) (h : s.hp.notices.length < 16) :
    (lockNotice k l g q s).hp = { s.hp with notices := s.hp.notices ++
      [{ kind := k, lock := some l, station := none, generation := g, qualifier := q, busSeq := s.au.replica.busSeq }] } := by
  simp [lockNotice, placeNotice, h]

theorem stationNotice_room (k : NoticeKind) (t : Option Station) (q : Qualifier) (h : s.hp.notices.length < 16) :
    (stationNotice k t q s).hp = { s.hp with notices := s.hp.notices ++
      [{ kind := k, lock := none, station := t, generation := none, qualifier := q, busSeq := s.au.replica.busSeq }] } := by
  simp [stationNotice, placeNotice, h]

/-! ### A change of station state -/

theorem enterState_sc (x : StationState) : (enterState x s).sc = s.sc.inState x := by
  unfold enterState
  dsimp only
  (repeat' split) <;> simp [StationController.inState]

theorem enterState_gl (x : StationState) : (enterState x s).gl = if x = .member then s.gl else .stopped := by
  unfold enterState
  dsimp only
  by_cases hx : x = .member
  · simp only [hx, if_true]
    (repeat' split) <;> simp
  · simp only [hx, if_false]
    (repeat' split) <;> simp [stopAllGuards]

theorem enterState_rt (x : StationState) : (enterState x s).rt = if present x then s.rt else .empty := by
  unfold enterState
  dsimp only
  cases hx : present x <;> simp only [if_true, if_false, Bool.false_eq_true] <;> (repeat' split) <;> simp

theorem enterState_pm (x : StationState) :
    (enterState x s).pm = if x = .member then s.pm else if present x then leaveMember s.pm else .idle := by
  unfold enterState
  dsimp only
  by_cases hx : x = .member
  · subst hx
    simp only [if_true, present]
    (repeat' split) <;> simp
  · simp only [hx, if_false]
    cases hp : present x <;> simp only [if_true, if_false, Bool.false_eq_true] <;> (repeat' split) <;> simp

theorem enterState_lc (x : StationState) :
    (enterState x s).lc = if voting s.sc.state = voting x then s.lc else clearFaults s.lc := by
  unfold enterState
  dsimp only
  by_cases h : voting s.sc.state = voting x <;> simp only [h, if_true, if_false] <;> (repeat' split) <;> simp

theorem enterState_au (x : StationState) :
    (enterState x s).au
      = if voting x then (if voting s.sc.state then s.au else clearStreak s.au) else .cleared := by
  unfold enterState
  dsimp only
  cases hx : voting x <;> cases hs : voting s.sc.state <;>
    simp only [if_true, if_false, Bool.false_eq_true] <;> (repeat' split) <;> simp_all

theorem enterState_tc (x : StationState) : (enterState x s).tc = if voting x then s.tc else .cleared := by
  unfold enterState
  dsimp only
  cases hx : voting x <;> simp only [if_true, if_false, Bool.false_eq_true] <;> (repeat' split) <;> simp

theorem enterState_oq (x : StationState) :
    (enterState x s).oq = if voting s.sc.state = true ∧ voting x = false then (purgeAll s).oq else s.oq := by
  unfold enterState
  dsimp only
  cases hx : voting x <;> cases hs : voting s.sc.state <;>
    simp only [if_true, if_false, Bool.false_eq_true, and_self, and_true] <;> (repeat' split) <;>
    simp_all [purgeAll]

/-! ### The drop -/

theorem purgeAll_entries : ∀ e ∈ (purgeAll s).oq.entries, e.contending = true ∧ e.discard = true := by
  intro e he
  simp only [purgeAll, State.withEntries, List.mem_map, List.mem_filter] at he
  obtain ⟨x, ⟨_, hx⟩, rfl⟩ := he
  exact ⟨hx, rfl⟩

theorem purgeAll_twice : (purgeAll (purgeAll s)).oq = (purgeAll s).oq := by
  simp only [purgeAll, State.withEntries, List.filter_map, List.map_map]
  simp [Function.comp_def, List.filter_filter]

theorem dropState_idle (c : DropCause) : present (dropState c s) = false ∧ voting (dropState c s) = false ∧
    (dropState c s = .listen ∨ dropState c s = .ready) := by
  unfold dropState
  split <;> simp [present, voting]

theorem dropsIn_voting (c : DropCause) (x : StationState) (h : dropsIn c x = true) : voting x = true := by
  cases c <;> cases x <;> simp_all [dropsIn, present, voting]

/-- What a drop leaves (R94, R95, R124). -/
theorem drop_dropped (c : DropCause) (h : dropsIn c s.sc.state = true) :
    (drop c s).offBus ∧
    (drop c s).hp = s.hp.noticed (revokedNotices s.au.replica.busSeq s.rt ++ [stationNoticeOf (dropNotice c)]) ∧
    (drop c s).sc = { s.sc.inState (dropState c s) with
                      askCount := if dropState c s = .listen then 0 else s.sc.askCount } ∧
    (drop c s).lc = { clearFaults s.lc with collisions := 0 } := by
  obtain ⟨h1, h2, h3⟩ := dropState_idle s c
  have hv : voting s.sc.state = true := dropsIn_voting c _ h
  have hm : dropState c s ≠ .member := by rcases h3 with h3 | h3 <;> simp [h3]
  unfold drop
  rw [if_pos h]
  dsimp only
  refine ⟨⟨?_, ?_, ?_, ?_, ?_, ?_⟩, ?_, ?_, ?_⟩
  · simp [enterState_au, h2]
  · simp [enterState_rt, h1]
  · simp [enterState_pm, h1, hm]
  · simp [enterState_tc, h2]
  · simp [enterState_gl, hm]
  · intro e he
    simp [enterState_oq, hv, h2, purgeAll_twice] at he
    exact purgeAll_entries _ e he
  · rw [stationNotice_hp]
    have hr := revokeNotices_hp (stopAllGuards s)
    simp only [stopAllGuards, State.withGl] at hr
    simp [enterState_au, h2, ApplyUnit.cleared, Replica.cleared, revokeAll, stopAllGuards, State.withGl, hr, HostPort.noticed_append, stationNoticeOf]
  · simp [enterState_sc, StationController.inState]
  · simp [enterState_lc, hv, h2]

/-- A station off the bus drives no grant line. -/
theorem offBus_inactive {t : State} (h : t.offBus) (n : GrantLine) : grantActive t n = false := by
  have : t.gl = .stopped := h.2.2.2.2.1
  simp [grantActive, this, GrantUnit.stopped]

end Sys2Proof.Machine
end

