-- ==== Sys2Proof/Laws/Fence.lean ====
section
/-! SUPPORT. What the fence, the eviction decision and the revalidation do. -/

namespace Sys2Proof.Machine

variable (s : State)

/-- With the fence set as it was nothing happens. -/
theorem fenceChanged_same (a : Bool × Bool) : fenceChanged a a s = s := by
  obtain ⟨c, q⟩ := a
  cases c <;> cases q <;> simp [fenceChanged, fenceNotices, fenceGuards]

theorem fenceNotices_keeps (a b : Bool × Bool) : s.hp.notices <+: (fenceNotices a b s).hp.notices := by
  have h2 : ∀ (u : State) (k : NoticeKind) (x : FenceCause),
      u.hp.notices <+: (stationNotice k none (.fence x) u).hp.notices := fun u k x => stationNotice_keeps u _ _ _
  unfold fenceNotices
  extract_lets s1 s2
  have h1 : s.hp.notices <+: s1.hp.notices := by
    simp only [s1]
    split
    · exact h2 _ _ _
    · exact List.prefix_rfl
  have h3 : s.hp.notices <+: s2.hp.notices := by
    simp only [s2]
    split
    · exact h1.trans (h2 _ _ _)
    · exact h1
  clear_value s1 s2
  (repeat' split)
  · exact h3
  · exact h3.trans (h2 _ _ _)
  · exact h3.trans (h2 _ _ _)
  · exact h3

theorem fenceGuards_hp (a b : Bool × Bool) : (fenceGuards a b s).hp = s.hp := by
  unfold fenceGuards
  (repeat' split) <;> simp

theorem fenceChanged_keeps (a b : Bool × Bool) : s.hp.notices <+: (fenceChanged a b s).hp.notices := by
  unfold fenceChanged
  rw [fenceGuards_hp]
  exact fenceNotices_keeps s a b

/-- A cause that enters the set of an unfenced station stops every guard. -/
theorem fenceGuards_stop (b : Bool × Bool) (h : (b.1 || b.2) = true) :
    (fenceGuards (false, false) b s).gl = .stopped := by
  simp [fenceGuards, h, stopAllGuards]

/-! ### The queue's own care: revalidation and the eviction decision -/

theorem decideEviction_kept :
    (decideEviction s).oq.entries.filter (fun e => e.contending || isRequest e.content)
      = s.oq.entries.filter fun e => e.contending || isRequest e.content := by
  unfold decideEviction
  (repeat' split) <;> simp [placeEntry, newEntry, isRequest, ownerOf]

theorem entryDue_request {e : Entry} (h : isRequest e.content = true) : entryDue s e.content = true := by
  cases hc : e.content <;> simp_all [isRequest, ownerOf, entryDue]

theorem removeStale_kept :
    (removeStale s).oq.entries.filter (fun e => e.contending || isRequest e.content)
      = s.oq.entries.filter fun e => e.contending || isRequest e.content := by
  simp only [removeStale, cancelQueued, State.withEntries, List.filter_filter]
  apply List.filter_congr
  intro e _
  cases hc : e.contending
  · cases hr : isRequest e.content
    · simp
    · simp [entryDue_request s hr]
  · simp

theorem revalidate_kept :
    (revalidate s).oq.entries.filter (fun e => e.contending || isRequest e.content)
      = s.oq.entries.filter fun e => e.contending || isRequest e.content := by
  unfold revalidate
  dsimp only
  (repeat' split) <;> (try rw [decideEviction_kept]) <;> exact removeStale_kept s

theorem cancelOwner_kept (o : Owner) (h : ∀ t, o ≠ .slot t) (p : Entry → Bool) :
    (cancelQueued (fun e => ownerOf e.content == o && p e) s).oq.entries.filter
        (fun e => e.contending || isRequest e.content)
      = s.oq.entries.filter fun e => e.contending || isRequest e.content := by
  simp only [cancelQueued, State.withEntries, List.filter_filter]
  apply List.filter_congr
  intro e _
  cases hc : e.contending
  · cases hr : isRequest e.content
    · simp
    · have : ownerOf e.content ≠ o := by
        intro ho
        simp only [isRequest] at hr
        split at hr
        · rename_i t ht; exact h t (ho ▸ ht)
        · cases hr
      have : (ownerOf e.content == o) = false := by simpa using this
      simp [this]
  · simp

theorem cancelKind_kept (o : Owner) (h : ∀ t, o ≠ .slot t) :
    (cancelQueued (fun e => ownerOf e.content == o) s).oq.entries.filter (fun e => e.contending || isRequest e.content)
      = s.oq.entries.filter fun e => e.contending || isRequest e.content := by
  simpa using cancelOwner_kept s o h (fun _ => true)

theorem revalidateEvict_kept :
    (revalidateEvict s).oq.entries.filter (fun e => e.contending || isRequest e.content)
      = s.oq.entries.filter fun e => e.contending || isRequest e.content := by
  unfold revalidateEvict
  split
  · rw [decideEviction_kept, cancelOwner_kept s .evict (by simp)]
  · rfl

theorem keepFeeding_kept :
    (keepFeeding s).oq.entries.filter (fun e => e.contending || isRequest e.content)
      = s.oq.entries.filter fun e => e.contending || isRequest e.content := by
  unfold keepFeeding
  (repeat' split)
  · rfl
  · simp [placeEntry, newEntry, isRequest, ownerOf]
  · exact cancelKind_kept s .page (by simp)

/-- Revalidation changes the presence state only where a QUEUED BEACON is found outside MEMBER and DEPARTING. -/
theorem revalidate_pm_present (h : present s.sc.state = true) : (revalidate s).pm = s.pm := by
  have : staleEntry .beacon s = false := by
    simp only [staleEntry, List.any_eq_false]
    intro e _
    cases hc : e.content <;> simp [ownerOf, entryDue, h]
  unfold revalidate
  simp only [this, Bool.false_eq_true, if_false]
  split <;> simp

theorem revalidate_pm_idle (h : s.pm = .idle) : (revalidate s).pm = .idle := by
  unfold revalidate
  dsimp only
  (repeat' split) <;> simp [h, PresenceMonitor.idle]

/-- With feeder duty a PAGE entry stands in the queue after the Transfer Controller's care and the revalidation (R98). -/
theorem feeding_page (h : feederDuty s = true) : ∃ e ∈ (revalidate (keepFeeding s)).oq.entries, e.content = .page := by
  have h1 : ∃ e ∈ (keepFeeding s).oq.entries, e.content = .page := by
    unfold keepFeeding
    rw [if_pos h]
    split
    · rename_i h2
      simp only [hasEntry, List.any_eq_true] at h2
      obtain ⟨e, he, ho⟩ := h2
      refine ⟨e, he, ?_⟩
      cases hc : e.content <;> simp_all [ownerOf]
    · exact ⟨newEntry .page, by simp [placeEntry], rfl⟩
  obtain ⟨e, he, hc⟩ := h1
  have hd : entryDue (keepFeeding s) e.content = true := by
    rw [hc]
    simpa [entryDue, feederDuty] using h
  have h2 : e ∈ (removeStale (keepFeeding s)).oq.entries := by
    simp [removeStale, cancelQueued, he, hd]
  refine ⟨e, ?_, hc⟩
  unfold revalidate
  dsimp only
  have h3 : ∀ u : State, e ∈ u.oq.entries → e ∈ (decideEviction u).oq.entries := by
    intro u hu
    unfold decideEviction
    (repeat' split) <;> simp [placeEntry, hu]
  (repeat' split) <;> first | exact h3 _ h2 | exact h2

end Sys2Proof.Machine
end

