-- ==== Sys2Proof/Laws/Receive.lean ====
section
/-! SUPPORT. What an accepted frame does at a receiver: how it reaches the Apply Unit, and how the blocks take its report. -/

namespace Sys2Proof.Machine

variable (s : State)

theorem exec_frameCommand (k : Kind) (rd : Reading) : exec (frameCommand k rd) s = .next (acceptedFrame k rd s) := by
  cases k <;> rfl

/-! ### How an accepted frame is handed on -/

theorem endReceived_voting {rd : Reading} {f : Frame} (h : voting s.sc.state = true) :
    endReceived (.clean f) rd s = s.withLc (s.lc.heard rd.cells) := by
  simp [endReceived, countClean, setLine, keepRead, h, LineController.heard, State.withLc]

theorem endReceived_other {rd : Reading} {f : Frame} (h : voting s.sc.state = false) :
    endReceived (.clean f) rd s = s.withLc (s.lc.overheard rd.cells) := by
  simp [endReceived, countClean, setLine, keepRead, h, LineController.overheard, State.withLc]

theorem acceptedFrame_receives {rd : Reading} {f : Frame} (h : s.receives rd f) :
    acceptedFrame f.kind rd s = acceptFrame false f (s.withLc (s.lc.heard rd.cells)) := by
  obtain ⟨⟨h1, h2, h3⟩, h4, _⟩ := h
  simp [acceptedFrame, h1, h2, h3, endReceived_voting s h4]

theorem acceptedFrame_overhears {rd : Reading} {f : Frame} (h : s.hears rd f) (hv : voting s.sc.state = false) :
    acceptedFrame f.kind rd s = observe false f (s.withLc (s.lc.overheard rd.cells)) := by
  obtain ⟨h1, h2, h3⟩ := h
  simp [acceptedFrame, h1, h2, h3, endReceived_other s hv, acceptFrame, hv]

theorem anyPair_self (p : Cell → Cell → Bool) (h : ∀ c, p c c = false) (l : List Cell) : anyPair p l l = false := by
  induction l with
  | nil => rfl
  | cons c l ih => simpa [anyPair, h c] using ih

theorem collisionIn_self (f : Frame) : collisionIn (frameCells f) (readingOf f) = false := by
  have h := anyPair_self cellCollides (by intro c; simp [cellCollides, BitVec.and_not_self])
  simp only [collisionIn, readingOf]
  cases frameCells f <;> simp [h]

theorem mistransmitIn_self (f : Frame) : mistransmitIn (frameCells f) (readingOf f) = false :=
  anyPair_self cellMistransmits (by intro c; simp [cellMistransmits, BitVec.not_and_self]) _

theorem acceptedFrame_sends {rd : Reading} {f : Frame} (h : s.sends rd f) :
    acceptedFrame f.kind rd s = acceptOwn f rd s := by
  obtain ⟨h1, h2, h3, h4⟩ := h
  simp [acceptedFrame, h1, h2, h3, h4, collisionIn_self, mistransmitIn_self]

/-! ### The report of a frame that adds and removes no member -/

/-- A report that moves no station: no member is added or removed, no round breaks, no image fails, and the streak is not complete. -/
def Report.plain (rep : Report) : Prop :=
  rep.added = none ∧ rep.removed = none ∧ rep.enrol = none ∧ rep.desync = false ∧ rep.imageFailure = false ∧
    .roundRestarted ∉ rep.events ∧ .roundDissolved ∉ rep.events

theorem stationReport_calm {rep : Report} (h : rep.plain) (ho : rep.own = false)
    (hc : s.sc.state = .collecting → s.tc.collected ≤ 15) : stationReport rep s = s := by
  obtain ⟨h1, h2, h3, h4, h5, h6, h7⟩ := h
  have hb : roundBroken rep s = s := by
    unfold roundBroken
    split
    · have : (rep.events.any fun e => e == .roundRestarted || e == .roundDissolved) = false := by
        simp only [List.any_eq_false]
        intro e he
        cases e <;> simp_all
      simp [this]
    · simp [h2]
    · rfl
  have hd : collectionDone s = s := by
    unfold collectionDone
    rw [if_neg]
    rintro ⟨hx, hy⟩
    have := hc hx
    omega
  simp [stationReport, ownDepart, ownEnrol, ho, hb, hd, h4, h5]

/-- What the blocks do with an APPLIED report that moves no station, from another station: the outcomes are taken, the sender is heard,
and the outbound queue is looked after. -/
theorem handOn_plain {rep : Report} (h : rep.plain) (ho : rep.own = false) (ha : rep.disposition = .applied)
    (hv : voting s.sc.state = true) (hc : s.sc.state = .collecting → s.tc.collected ≤ 15) :
    (handOn rep s).au = s.au ∧ (handOn rep s).sc = s.sc ∧ (handOn rep s).tc = s.tc ∧ (handOn rep s).lc = s.lc ∧
    (handOn rep s).rt = (takeOutcomes rep.outcomes s).rt ∧ (handOn rep s).gl = (takeOutcomes rep.outcomes s).gl ∧
    (handOn rep s).ri = (takeOutcomes rep.outcomes s).ri ∧ (handOn rep s).hp = (takeOutcomes rep.outcomes s).hp ∧
    (present s.sc.state = true → (handOn rep s).pm = s.pm.heard rep.sender) ∧
    (s.pm = .idle → (handOn rep s).pm = .idle) ∧
    (handOn rep s).oq.entries.filter (fun e => e.contending || isRequest e.content)
      = (takeOutcomes rep.outcomes s).oq.entries.filter (fun e => e.contending || isRequest e.content) ∧
    (feederDuty s = true → ∃ e ∈ (handOn rep s).oq.entries, e.content = .page) := by
  have hd : departHolds rep (takeOutcomes rep.outcomes s) = takeOutcomes rep.outcomes s := by
    simp [departHolds, ho]
  generalize hu : takeOutcomes rep.outcomes s = u at *
  have hs : u.sc = s.sc ∧ u.tc = s.tc ∧ u.au = s.au ∧ u.lc = s.lc ∧ u.pm = s.pm ∧ u.station = s.station := by
    subst hu; simp
  obtain ⟨hs1, hs2, hs3, hs4, hs5, hs6⟩ := hs
  have hp : presenceReactions rep u = if present u.sc.state then revalidateEvict (memberHeard rep.sender u) else u := by
    have h1 : presenceReport rep u = memberHeard rep.sender u := by
      have hc : fenceSet (memberHeard rep.sender u) = fenceSet u := by
        unfold memberHeard
        split <;> simp [fenceSet]
      simp [presenceReport, senderReport, addedReport, removedReport, ho, h.1, h.2.1, hc, fenceChanged_same]
    simp [presenceReactions, h1, ho, ousts, h.2.1]
  have hpm : (memberHeard rep.sender u).pm = s.pm.heard rep.sender := by
    unfold memberHeard PresenceMonitor.heard
    rw [hs5]
    split <;> simp [hs5]
  have hr : reactApplied rep s = revalidate (keepFeeding (presenceReactions rep u)) := by
    have hst : stationReport rep (presenceReactions rep u) = presenceReactions rep u := by
      apply stationReport_calm _ h ho
      rw [hp]
      split <;> simp [hs1, hs2] <;> exact hc
    have hvv : voting (keepFeeding (presenceReactions rep u)).sc.state = true := by
      rw [hp]
      split <;> simp [hs1, hv]
    simp only [reactApplied, hu, hd, hst, hvv, if_true]
  have hh : handOn rep s = revalidate (keepFeeding (presenceReactions rep u)) := by
    simp [handOn, ha, hr]
  rw [hh, hp]
  refine ⟨?_, ?_, ?_, ?_, ?_, ?_, ?_, ?_, ?_, ?_, ?_, ?_⟩
  · split <;> simp [hs3]
  · split <;> simp [hs1]
  · split <;> simp [hs2]
  · split <;> simp [hs4]
  · split <;> simp
  · split <;> simp
  · split <;> simp
  · split <;> simp
  · intro hpr
    rw [hs1, if_pos hpr, revalidate_pm_present _ (by simpa [hs1] using hpr)]
    simp [hpm]
  · intro hi
    apply revalidate_pm_idle
    split
    · simp [hpm, hi, PresenceMonitor.heard, PresenceMonitor.idle]
    · simp [hs5, hi]
  · rw [revalidate_kept, keepFeeding_kept]
    split
    · rw [revalidateEvict_kept]; simp
    · rfl
  · intro hf
    apply feeding_page
    split <;> simpa [feederDuty, hs1, hs3, hs6] using hf

/-- A receiver's report whose outcomes do not name this station leaves its locks alone. -/
theorem takeOutcomes_none {l : List LockOutcome} (h : ∀ o ∈ l, o.subject ≠ s.station) : takeOutcomes l s = s := by
  have : (l.filter fun o => o.subject == s.station) = [] := by
    simp only [List.filter_eq_nil_iff]
    intro o ho
    simpa using h o ho
  simp [takeOutcomes, this]

/-- The Apply Unit's part of a frame applied at a receiver, with no page to install. -/
theorem acceptFrame_applied {rd : Reading} {f : Frame} (h : s.receives rd f)
    (hd : dispositionOf s.au.replica f = .applied)
    (hn : s.sc.state = .collecting →
      takesLockPage (applyKind s.tc.uncollected (sameProfile s f.payload) false f s.au.replica).2 = false) :
    exec (frameCommand f.kind rd) s
      = .next (handOn (applyKind s.tc.uncollected (sameProfile s f.payload) false f s.au.replica).2
          ((s.withLc (s.lc.heard rd.cells)).withAu
            (.after { (applyKind s.tc.uncollected (sameProfile s f.payload) false f s.au.replica).1 with
                      busSeq := s.au.replica.busSeq }))) := by
  rw [exec_frameCommand, acceptedFrame_receives s h]
  have hsame : sameProfile (s.withLc (s.lc.heard rd.cells)) f.payload = sameProfile s f.payload := rfl
  have hv : voting (s.withLc (s.lc.heard rd.cells)).sc.state = true := h.2.1
  simp only [acceptFrame, hv, if_true, takeFrame]
  have hd' : dispositionOf (s.withLc (s.lc.heard rd.cells)).au.replica f = .applied := hd
  simp only [hd', applyFrame, hsame]
  rw [if_neg]
  · simp [ApplyUnit.after, clearStreak]
  · rintro ⟨h1, h2⟩
    exact absurd h2 (by simpa using hn h1)

/-! ### Statements about a receiver -/

/-- A frame of a member at the receiver's bus sequence is applied (R34). -/
theorem dispositionOf_inStep {f : Frame} (hk : f.kind ≠ .found) (h : s.inStep f) :
    dispositionOf s.au.replica f = .applied := by
  obtain ⟨h1, h2⟩ := h
  unfold dispositionOf
  simp at h2
  cases hh : f.kind <;> simp_all

/-- A report that moves no station leaves the receiver as State.followed says, with the replica that was applied. -/
theorem handOn_followed {s : State} {rd : Reading} {f : Frame} (h : s.receives rd f) (x : ApplyUnit) {rep : Report}
    (hp : rep.plain) (ho : rep.own = false) (ha : rep.disposition = .applied) (hs : rep.sender = f.sender) :
    s.followed (handOn rep ((s.withLc (s.lc.heard rd.cells)).withAu x)) rd f ∧
      (handOn rep ((s.withLc (s.lc.heard rd.cells)).withAu x)).au = x := by
  obtain ⟨h1, h2, h3, h4, h5, h6, h7, h8, h9, h10, h11, _⟩ :=
    handOn_plain ((s.withLc (s.lc.heard rd.cells)).withAu x) hp ho ha h.2.1 h.2.2
  refine ⟨⟨by simp, by simp, by simp, by rw [h2]; simp, by rw [h3]; simp, by rw [h4]; simp, ?_, ?_⟩, by rw [h1]; simp⟩
  · intro h; rw [← hs]; simpa using h9 (by simpa using h)
  · intro h; exact h10 (by simpa using h)

/-- A report whose outcomes name another station leaves this station's locks alone. -/
theorem handOn_sameLocks {s : State} {rd : Reading} {f : Frame} (h : s.receives rd f) (x : ApplyUnit) {rep : Report}
    (hp : rep.plain) (ho : rep.own = false) (ha : rep.disposition = .applied)
    (hn : ∀ o ∈ rep.outcomes, o.subject ≠ s.station) :
    s.sameLocks (handOn rep ((s.withLc (s.lc.heard rd.cells)).withAu x)) := by
  obtain ⟨h1, h2, h3, h4, h5, h6, h7, h8, h9, h10, h11, _⟩ :=
    handOn_plain ((s.withLc (s.lc.heard rd.cells)).withAu x) hp ho ha h.2.1 h.2.2
  have : takeOutcomes rep.outcomes ((s.withLc (s.lc.heard rd.cells)).withAu x)
      = (s.withLc (s.lc.heard rd.cells)).withAu x := takeOutcomes_none _ hn
  rw [this] at h5 h6 h7 h8 h11
  exact ⟨h5, h6, h7, h8, h11⟩

end Sys2Proof.Machine
end

