-- ==== Sys2Proof/Laws/Own.lean ====
section
/-! SUPPORT. What an own frame does at its sender once it is accepted. -/

namespace Sys2Proof.Machine

variable (s : State)

/-- The end of an own attempt changes the Line Controller alone. -/
theorem acceptOwn_line (f : Frame) (rd : Reading) :
    ∃ x : LineController, acceptOwn f rd s = acceptFrame true f (s.withLc x) ∧ x.state = .closing := by
  unfold acceptOwn countTransmit
  by_cases h : voting (countCollision false (setLine .closing (keepSent f rd.cells s))).sc.state = true
  · rw [if_pos h]
    exact ⟨_, rfl, rfl⟩
  · rw [if_neg h]
    exact ⟨_, rfl, rfl⟩

/-- A report of this station's own frame that moves no station leaves the Station Controller alone. -/
theorem stationReport_own {rep : Report} (h : rep.plain) (hk : rep.kind ≠ .depart)
    (hc : s.sc.state = .collecting → s.tc.collected ≤ 15) : stationReport rep s = s := by
  obtain ⟨h1, h2, h3, h4, h5, h6, h7⟩ := h
  have hb : roundBroken rep s = s := by
    unfold roundBroken
    split
    · have : (rep.events.any fun e => e == .roundRestarted || e == .roundDissolved) = false := by
        simp only [List.any_eq_false]
        intro e he
        cases e <;> simp_all
      simp [this]
    · simp [h2]
    · rfl
  have hd : collectionDone s = s := by
    unfold collectionDone
    rw [if_neg]
    rintro ⟨hx, hy⟩
    have := hc hx
    omega
  simp [stationReport, ownDepart, ownEnrol, hk, h3, hb, hd, h4, h5]

/-- What an own frame does to the presence state (R53, R55, R71). -/
theorem ownFrameApplied_pm (k : Kind) :
    (ownFrameApplied k s).pm.ownContact = 0 ∧ (ownFrameApplied k s).pm.contact = false ∧
    (ownFrameApplied k s).pm.silence = s.pm.silence ∧ (ownFrameApplied k s).pm.quorum = s.pm.quorum ∧
    (ownFrameApplied k s).pm.attained = s.pm.attained ∧ (ownFrameApplied k s).pm.stranding = s.pm.stranding := by
  unfold ownFrameApplied
  dsimp only
  (repeat' split) <;> simp

theorem ownFrameApplied_kept (k : Kind) :
    (ownFrameApplied k s).oq.entries.filter (fun e => e.contending || isRequest e.content)
      = s.oq.entries.filter fun e => e.contending || isRequest e.content := by
  unfold ownFrameApplied
  dsimp only
  (repeat' split)
  · rfl
  · exact cancelKind_kept (s.withPm _) .beacon (by simp)
  · rfl

/-- What the blocks do with an APPLIED report of this station's own frame that moves no station and is no EVICT or DEPART. -/
theorem handOn_own {rep : Report} (h : rep.plain) (ho : rep.own = true) (ha : rep.disposition = .applied)
    (hk : rep.kind ≠ .depart) (hv : voting s.sc.state = true) (hc : s.sc.state = .collecting → s.tc.collected ≤ 15) :
    (handOn rep s).au = s.au ∧ (handOn rep s).sc = s.sc ∧ (handOn rep s).tc = s.tc ∧ (handOn rep s).lc = s.lc ∧
    (handOn rep s).rt = (takeOutcomes rep.outcomes s).rt ∧ (handOn rep s).ri = (takeOutcomes rep.outcomes s).ri ∧
    (takeOutcomes rep.outcomes s).hp.notices <+: (handOn rep s).hp.notices ∧
    (present s.sc.state = true → (handOn rep s).pm.ownContact = 0 ∧ (handOn rep s).pm.contact = false ∧
      (handOn rep s).pm.silence = s.pm.silence) ∧
    (handOn rep s).oq.entries.filter (fun e => e.contending || isRequest e.content)
      = (takeOutcomes rep.outcomes s).oq.entries.filter fun e => e.contending || isRequest e.content := by
  have hd : departHolds rep (takeOutcomes rep.outcomes s) = takeOutcomes rep.outcomes s := by
    simp [departHolds, hk]
  generalize hu : takeOutcomes rep.outcomes s = u at *
  have hs : u.sc = s.sc ∧ u.tc = s.tc ∧ u.au = s.au ∧ u.lc = s.lc ∧ u.pm = s.pm := by
    subst hu; simp
  obtain ⟨hs1, hs2, hs3, hs4, hs5⟩ := hs
  generalize hw : fenceChanged (fenceSet u) (fenceSet (ownFrameApplied rep.kind u)) (ownFrameApplied rep.kind u) = w
  have hwk : w.oq.entries.filter (fun e => e.contending || isRequest e.content)
      = u.oq.entries.filter fun e => e.contending || isRequest e.content := by
    subst hw
    rw [show (fenceChanged (fenceSet u) (fenceSet (ownFrameApplied rep.kind u)) (ownFrameApplied rep.kind u)).oq
        = (ownFrameApplied rep.kind u).oq by simp]
    exact ownFrameApplied_kept u _
  have hwn : u.hp.notices <+: w.hp.notices := by
    subst hw
    have := fenceChanged_keeps (ownFrameApplied rep.kind u) (fenceSet u) (fenceSet (ownFrameApplied rep.kind u))
    simpa using this
  have hwp : w.pm.ownContact = 0 ∧ w.pm.contact = false ∧ w.pm.silence = s.pm.silence := by
    subst hw
    obtain ⟨a, b, c, _⟩ := ownFrameApplied_pm u rep.kind
    refine ⟨by simpa using a, by simpa using b, by simpa [hs5] using c⟩
  have hwf : w.sc = u.sc ∧ w.tc = u.tc ∧ w.au = u.au ∧ w.lc = u.lc ∧ w.rt = u.rt ∧ w.ri = u.ri := by
    subst hw; simp
  obtain ⟨w1, w2, w3, w4, w5, w6⟩ := hwf
  have hp : presenceReactions rep u =
      if present u.sc.state then revalidateEvict (if rep.kind = .evict then decideEviction w else w) else u := by
    have h1 : presenceReport rep u = w := by
      simpa [presenceReport, senderReport, addedReport, removedReport, ho, h.1, h.2.1, fenceChanged_same] using hw
    simp [presenceReactions, h1, ho, ousts, h.2.1]
  generalize hx : presenceReactions rep u = x at *
  have hxf : x.sc = u.sc ∧ x.tc = u.tc ∧ x.au = u.au ∧ x.lc = u.lc ∧ x.rt = u.rt ∧ x.ri = u.ri ∧
      u.hp.notices <+: x.hp.notices ∧
      (present s.sc.state = true → x.pm.ownContact = 0 ∧ x.pm.contact = false ∧ x.pm.silence = s.pm.silence) ∧
      x.oq.entries.filter (fun e => e.contending || isRequest e.content)
        = u.oq.entries.filter fun e => e.contending || isRequest e.content := by
    rw [hp]
    refine ⟨?_, ?_, ?_, ?_, ?_, ?_, ?_, ?_, ?_⟩
    · (repeat' split) <;> simp [w1]
    · (repeat' split) <;> simp [w2]
    · (repeat' split) <;> simp [w3]
    · (repeat' split) <;> simp [w4]
    · (repeat' split) <;> simp [w5]
    · (repeat' split) <;> simp [w6]
    · (repeat' split) <;> simp [hwn]
    · intro hpr
      rw [hs1, if_pos hpr]
      split <;> simpa using hwp
    · split
      · rw [revalidateEvict_kept]
        split
        · rw [decideEviction_kept]; exact hwk
        · exact hwk
      · rfl
  obtain ⟨x1, x2, x3, x4, x5, x6, x7, x8, x9⟩ := hxf
  have hst : stationReport rep x = x := by
    apply stationReport_own _ h hk
    rw [x1, x2, hs1, hs2]; exact hc
  have hvv : voting (keepFeeding x).sc.state = true := by simp [x1, hs1, hv]
  have hr : handOn rep s = revalidate (keepFeeding x) := by
    simp only [handOn, ha, if_true, reactApplied, hu, hd, hx, hst, hvv]
  rw [hr]
  refine ⟨by simp [x3, hs3], by simp [x1, hs1], by simp [x2, hs2], by simp [x4, hs4], by simp [x5], by simp [x6],
    by simpa using x7, ?_, by rw [revalidate_kept, keepFeeding_kept]; exact x9⟩
  intro hpr
  rw [revalidate_pm_present _ (by simpa [x1, hs1] using hpr)]
  simpa using x8 hpr

/-- An own frame accepted at a station that votes, applied with no page to install (R33, R34, R152). -/
theorem acceptOwn_applied {rd : Reading} {f : Frame} (h : s.sends rd f) (hv : voting s.sc.state = true)
    (hd : dispositionOf s.au.replica f = .applied)
    (hn : s.sc.state = .collecting →
      takesLockPage (applyKind s.tc.uncollected (sameProfile s f.payload) true f s.au.replica).2 = false) :
    ∃ x : LineController, x.state = .closing ∧ exec (frameCommand f.kind rd) s
      = .next (handOn (applyKind s.tc.uncollected (sameProfile s f.payload) true f s.au.replica).2
          (ownAccepted f.kind ((s.withLc x).withAu
            { s.au with replica := { (applyKind s.tc.uncollected (sameProfile s f.payload) true f s.au.replica).1 with
                                     busSeq := s.au.replica.busSeq + 1 } }))) := by
  obtain ⟨x, hx, hc⟩ := acceptOwn_line s f rd
  refine ⟨x, hc, ?_⟩
  rw [exec_frameCommand, acceptedFrame_sends s h, hx]
  have hsame : sameProfile (s.withLc x) f.payload = sameProfile s f.payload := rfl
  have hv' : voting (s.withLc x).sc.state = true := hv
  have hd' : dispositionOf (s.withLc x).au.replica f = .applied := hd
  simp only [acceptFrame, hv', if_true, takeFrame, hd', applyFrame, hsame]
  rw [if_neg]
  · rfl
  · rintro ⟨h1, h2⟩
    exact absurd h2 (by simpa using hn h1)

/-- What the removal of the own entry leaves: the Line Controller, the entry and the beacon age apart, the state as it was (R152). -/
theorem ownAccepted_effect (k : Kind) (u : State) :
    (ownAccepted k u).au = u.au ∧ (ownAccepted k u).sc = u.sc ∧ (ownAccepted k u).tc = u.tc ∧ (ownAccepted k u).rt = u.rt ∧
    (ownAccepted k u).ri = u.ri ∧ (ownAccepted k u).hp = u.hp ∧ (ownAccepted k u).gl = u.gl ∧
    (ownAccepted k u).station = u.station ∧
    (ownAccepted k u).oq.entries = u.oq.entries.filter (fun e => !e.contending) ∧
    (ownAccepted k u).pm = { u.pm with beaconAge := if k = .beacon then none else u.pm.beaconAge } := by
  unfold ownAccepted
  dsimp only
  split <;> simp [removeContending, *]

end Sys2Proof.Machine
end

