-- ==== Sys2Proof/Laws/PerInstr.lean ====
section
/-! SUPPORT. The family WellFormedFits: for each command, the executable check WellFormed says what the manual asks of its operands. -/

namespace Sys2Proof.Laws.WellFormedFits

open Sys2Proof.Machine

/-- A reading of an accepted frame of a kind: it was followed to its end, and if it was clean it is of that kind (R168, R169, R172). -/
def FrameFits (k : Kind) (rd : Reading) : Prop :=
  (∀ t, receive rd ≠ .lost t) ∧ ∀ f, receive rd = .clean f → f.kind = k

/-- What the operands of a command must be. An unknown command's byte is none of the thirteen codes (R184, R206); the cells read of a
lost frame are three, the last of which fails its turn check or names a payload above 50 bytes (R168, R169). -/
def Fits : Instr → Prop
  | .unknownCommand code =>
    code ∉ ([0x10, 0x11, 0x12, 0x13, 0x20, 0x21, 0x22, 0x23, 0x30, 0x31, 0x32, 0x33, 0x34] : List Byte)
  | .frameLost cells =>
    ∃ arb kind length, cells = [arb, kind, length] ∧ (length.turn = length.data.getLsbD 0 ∨ 50 < length.data.toNat)
  | .claimFrame rd => FrameFits .claim rd
  | .yieldFrame rd => FrameFits .yield rd
  | .withdrawFrame rd => FrameFits .withdraw rd
  | .evictFrame rd => FrameFits .evict rd
  | .departFrame rd => FrameFits .depart rd
  | .beaconFrame rd => FrameFits .beacon rd
  | .syncAskFrame rd => FrameFits .syncAsk rd
  | .pageFrame rd => FrameFits .page rd
  | .enrolFrame rd => FrameFits .enrol rd
  | .foundFrame rd => FrameFits .found rd
  | .hardReset => True
  | .hardResetEnd _ _ => True
  | .configureCommand _ => True
  | .joinCommand => True
  | .leaveCommand => True
  | .resetCommand => True
  | .claimCommand _ _ _ => True
  | .yieldCommand _ => True
  | .withdrawCommand _ => True
  | .renewCommand _ => True
  | .readLockCommand _ => True
  | .readRosterCommand => True
  | .readHoldsCommand => True
  | .readNoticeCommand => True
  | .readStatusCommand => True
  | .transactionTruncated => True
  | .readNoticeCompletion => True
  | .readStatusCompletion => True
  | .busOpportunity => True
  | .startBitConfirmed => True
  | .unconfirmedStartBit => True
  | .arbitrationLost => True
  | .endFault => True
  | .frameVoided _ => True
  | .ownContactReachesP => True
  | .beaconPromoted => True
  | .fenceLimit => True
  | .absenceLimit _ => True
  | .stranding => True
  | .foundingWait => True
  | .roundTimeout => True
  | .holdExpiry _ => True
  | .guardElapsed _ => True
  | .rawLevelChange _ _ => True
  | .stableLevelChange _ => True
  | .busIdle => True
  | .transactionBegin => True
  | .transactionEnd => True

/-- The check and the requirement agree on a command. -/
def Statement (i : Instr) : Prop := WellFormed i = true ↔ Fits i

theorem frame (k : Kind) (rd : Reading) : readingFits k rd = true ↔ FrameFits k rd := by
  unfold readingFits FrameFits
  cases receive rd <;> simp

theorem hardReset : Statement (.hardReset) := Iff.intro (fun _ => trivial) fun _ => rfl

theorem hardResetEnd (straps : Station) (rate : BitVec 2) : Statement (.hardResetEnd straps rate) := Iff.intro (fun _ => trivial) fun _ => rfl

theorem configureCommand (record : Vector Byte 20) : Statement (.configureCommand record) := Iff.intro (fun _ => trivial) fun _ => rfl

theorem joinCommand : Statement (.joinCommand) := Iff.intro (fun _ => trivial) fun _ => rfl

theorem leaveCommand : Statement (.leaveCommand) := Iff.intro (fun _ => trivial) fun _ => rfl

theorem resetCommand : Statement (.resetCommand) := Iff.intro (fun _ => trivial) fun _ => rfl

theorem claimCommand (lock mode limit : Byte) : Statement (.claimCommand lock mode limit) := Iff.intro (fun _ => trivial) fun _ => rfl

theorem yieldCommand (lock : Byte) : Statement (.yieldCommand lock) := Iff.intro (fun _ => trivial) fun _ => rfl

theorem withdrawCommand (lock : Byte) : Statement (.withdrawCommand lock) := Iff.intro (fun _ => trivial) fun _ => rfl

theorem renewCommand (lock : Byte) : Statement (.renewCommand lock) := Iff.intro (fun _ => trivial) fun _ => rfl

theorem readLockCommand (lock : Byte) : Statement (.readLockCommand lock) := Iff.intro (fun _ => trivial) fun _ => rfl

theorem readRosterCommand : Statement (.readRosterCommand) := Iff.intro (fun _ => trivial) fun _ => rfl

theorem readHoldsCommand : Statement (.readHoldsCommand) := Iff.intro (fun _ => trivial) fun _ => rfl

theorem readNoticeCommand : Statement (.readNoticeCommand) := Iff.intro (fun _ => trivial) fun _ => rfl

theorem readStatusCommand : Statement (.readStatusCommand) := Iff.intro (fun _ => trivial) fun _ => rfl

theorem unknownCommand (code : Byte) : Statement (.unknownCommand code) := by
  simp only [Statement, WellFormed, Fits]
  constructor
  · intro h hm
    simp only [List.mem_cons, List.not_mem_nil, or_false] at hm
    rcases hm with rfl | rfl | rfl | rfl | rfl | rfl | rfl | rfl | rfl | rfl | rfl | rfl | rfl <;> cases h
  · intro h
    simp only [List.mem_cons, List.not_mem_nil, or_false, not_or] at h
    obtain ⟨h1, h2, h3, h4, h5, h6, h7, h8, h9, h10, h11, h12, h13⟩ := h
    simp only [commandOfCode, if_neg h1, if_neg h2, if_neg h3, if_neg h4, if_neg h5, if_neg h6, if_neg h7, if_neg h8,
      if_neg h9, if_neg h10, if_neg h11, if_neg h12, if_neg h13, Option.isNone_none]

theorem transactionTruncated : Statement (.transactionTruncated) := Iff.intro (fun _ => trivial) fun _ => rfl

theorem readNoticeCompletion : Statement (.readNoticeCompletion) := Iff.intro (fun _ => trivial) fun _ => rfl

theorem readStatusCompletion : Statement (.readStatusCompletion) := Iff.intro (fun _ => trivial) fun _ => rfl

theorem busOpportunity : Statement (.busOpportunity) := Iff.intro (fun _ => trivial) fun _ => rfl

theorem startBitConfirmed : Statement (.startBitConfirmed) := Iff.intro (fun _ => trivial) fun _ => rfl

theorem unconfirmedStartBit : Statement (.unconfirmedStartBit) := Iff.intro (fun _ => trivial) fun _ => rfl

theorem arbitrationLost : Statement (.arbitrationLost) := Iff.intro (fun _ => trivial) fun _ => rfl

theorem frameLost (cells : List Cell) : Statement (.frameLost cells) := by
  simp only [Statement, WellFormed, Fits]
  constructor
  · intro h
    match cells, h with
    | [arb, kind, length], h =>
      refine ⟨arb, kind, length, rfl, ?_⟩
      simp only [lostCells, lengthHolds, turnHolds] at h
      by_cases h50 : 50 < length.data.toNat
      · exact .inr h50
      · left
        have : length.data.toNat ≤ 50 := by omega
        simpa [this] using h
  · rintro ⟨arb, kind, length, rfl, h⟩
    rcases h with h | h
    · simp [lostCells, lengthHolds, turnHolds, h]
    · have : ¬ length.data.toNat ≤ 50 := by omega
      simp [lostCells, lengthHolds, this]

theorem endFault : Statement (.endFault) := Iff.intro (fun _ => trivial) fun _ => rfl

theorem frameVoided (read : Reading) : Statement (.frameVoided read) := Iff.intro (fun _ => trivial) fun _ => rfl

theorem claimFrame (read : Reading) : Statement (.claimFrame read) := frame .claim read

theorem yieldFrame (read : Reading) : Statement (.yieldFrame read) := frame .yield read

theorem withdrawFrame (read : Reading) : Statement (.withdrawFrame read) := frame .withdraw read

theorem evictFrame (read : Reading) : Statement (.evictFrame read) := frame .evict read

theorem departFrame (read : Reading) : Statement (.departFrame read) := frame .depart read

theorem beaconFrame (read : Reading) : Statement (.beaconFrame read) := frame .beacon read

theorem syncAskFrame (read : Reading) : Statement (.syncAskFrame read) := frame .syncAsk read

theorem pageFrame (read : Reading) : Statement (.pageFrame read) := frame .page read

theorem enrolFrame (read : Reading) : Statement (.enrolFrame read) := frame .enrol read

theorem foundFrame (read : Reading) : Statement (.foundFrame read) := frame .found read

theorem ownContactReachesP : Statement (.ownContactReachesP) := Iff.intro (fun _ => trivial) fun _ => rfl

theorem beaconPromoted : Statement (.beaconPromoted) := Iff.intro (fun _ => trivial) fun _ => rfl

theorem fenceLimit : Statement (.fenceLimit) := Iff.intro (fun _ => trivial) fun _ => rfl

theorem absenceLimit (member : Station) : Statement (.absenceLimit member) := Iff.intro (fun _ => trivial) fun _ => rfl

theorem stranding : Statement (.stranding) := Iff.intro (fun _ => trivial) fun _ => rfl

theorem foundingWait : Statement (.foundingWait) := Iff.intro (fun _ => trivial) fun _ => rfl

theorem roundTimeout : Statement (.roundTimeout) := Iff.intro (fun _ => trivial) fun _ => rfl

theorem holdExpiry (slot : Tier) : Statement (.holdExpiry slot) := Iff.intro (fun _ => trivial) fun _ => rfl

theorem guardElapsed (line : GrantLine) : Statement (.guardElapsed line) := Iff.intro (fun _ => trivial) fun _ => rfl

theorem rawLevelChange (pin : Pin) (level : Bool) : Statement (.rawLevelChange pin level) := Iff.intro (fun _ => trivial) fun _ => rfl

theorem stableLevelChange (pin : Pin) : Statement (.stableLevelChange pin) := Iff.intro (fun _ => trivial) fun _ => rfl

theorem busIdle : Statement (.busIdle) := Iff.intro (fun _ => trivial) fun _ => rfl

theorem transactionBegin : Statement (.transactionBegin) := Iff.intro (fun _ => trivial) fun _ => rfl

theorem transactionEnd : Statement (.transactionEnd) := Iff.intro (fun _ => trivial) fun _ => rfl

end Sys2Proof.Laws.WellFormedFits
end

