-- ==== Sys2Proof/Tests/Slice0.lean ====
section
/-! SUPPORT. Tests on fixed values, and for each statement a witness that its hypotheses can be met. Expected values come from the worked
sequences and examples of the manual, or are computed by hand from its rules; each test names its source. -/

namespace Sys2Proof.Tests

-- One theorem at a time: many evaluations at once take the memory of a thread each.
set_option Elab.async false

open Sys2Proof.Machine

/-! ### WellFormed: an ill-formed command for each check -/

/-- 0x10 is CONFIGURE (R206). -/
theorem test_known_code_ill_formed : WellFormed (.unknownCommand 0x10) = false := by decide

theorem test_unknown_code_well_formed : WellFormed (.unknownCommand 0x7F) = true := by decide

/-- A lost frame's length cell fails; this one holds (R169). -/
theorem test_lost_length_ill_formed : WellFormed (.frameLost [cellOf 0xA3, cellOf 0x10, cellOf 2]) = false := by decide

theorem test_lost_count_ill_formed : WellFormed (.frameLost [cellOf 0xA3, cellOf 51]) = false := by decide

theorem test_lost_well_formed : WellFormed (.frameLost [cellOf 0xA3, cellOf 0x10, cellOf 51]) = true := by decide

/-- An accepted frame is not one that was lost at its length cell. -/
theorem test_frame_lost_ill_formed : WellFormed (.claimFrame { cells := [], gap := true }) = false := by decide

/-! ### Frames of the worked sequences -/

/-- The CLAIM of lock 12 in WAIT mode by station 3 at bus sequence 800 (section 11.1). -/
def claim12 : Frame := { cls := 5, sender := 3, kind := .claim, flags := 0, busSeq := 800, payload := [12, 0] }

theorem test_frame_kind_ill_formed : WellFormed (.yieldFrame (readingOf claim12)) = false := by decide +kernel

theorem test_frame_kind_well_formed : WellFormed (.claimFrame (readingOf claim12)) = true := by decide +kernel

/-- Chapter 8, "Example: three contenders": the arbitration cells of station 3 and of station 12's BEACON, with the turn bit. -/
theorem test_arbitration_cells :
    (frameCells claim12).head? = some { data := 0b10100011, turn := false } ∧
    (frameCells { claim12 with cls := 7, sender := 12 }).head? = some { data := 0b11101100, turn := true } := by
  decide +kernel

/-- The check value of this CRC over the ASCII digits 1 to 9 is 0x29B1 (polynomial 0x1021, preset 0xFFFF, no reflection: R170). -/
theorem test_crc_check_value : crcOf [0x31, 0x32, 0x33, 0x34, 0x35, 0x36, 0x37, 0x38, 0x39] = 0x29B1 := by decide +kernel

/-- The payload fields are read by mask (R203): lock in bits 5 to 0, mode in bit 0, generation most significant byte first. -/
theorem test_payload_fields :
    (lockField [0xCC, 0xFE]).val = 12 ∧ modeField [0xCC, 0xFE] = .wait ∧ modeField [12, 1] = .tryOnly ∧
    generationField [12, 1, 2] = 258 ∧ (targetField [0xE3]).val = 3 := by decide

/-! ### The lock 40 series of chapter 1 -/

def lock40 (h : Option Station) (g : Generation) (w : List Station) : LockEntry := { holder := h, generation := g, waiters := w }

theorem test_lock40_claims :
    claimEntry 9 .wait 40 (lock40 none 16 []) = (lock40 (some 9) 17 [], [outcomeOf .granted 40 9 17]) ∧
    claimEntry 2 .wait 40 (lock40 (some 9) 17 []) = (lock40 (some 9) 17 [2], [outcomeOf .queued 40 2 17]) ∧
    claimEntry 21 .tryOnly 40 (lock40 (some 9) 17 [2]) = (lock40 (some 9) 17 [2], [outcomeOf .refusedBusy 40 21 17]) := by
  decide

theorem test_lock40_releases :
    withdrawEntry 2 40 (lock40 (some 9) 17 [2, 14]) = (lock40 (some 9) 17 [14], [outcomeOf .withdrawn 40 2 17]) ∧
    (yieldEntry 9 17 .released 40 (lock40 (some 9) 17 [14])).1 = lock40 (some 14) 18 [] ∧
    (yieldEntry 9 17 .released 40 (lock40 (some 14) 18 [])).2.map (·.name) = [.stale] ∧
    removeFromEntry 14 40 (lock40 (some 14) 18 []) = (lock40 none 18 [], []) := by
  decide

/-! ### Station states for the tests -/

/-- P is 10 ms, Q is 2, the guard time is 3 ms (section 11.1); GNT0 is bound to lock 12 and REQ1 to lock 20. -/
def profile : ConfigRecord :=
  { period := .ms10, quorum := 2, guardTime := 3, autoRejoin := true, grants := putAt (Vector.replicate 8 none) 0 (some 12),
    requests := putAt (Vector.replicate 4 none) 1 (some 20), limits := Vector.replicate 4 0 }

/-- A replica with members 3, 7 and 20 and bus sequence 800, where lock 12 is as given (section 11.1). -/
def replica12 (e : LockEntry) : Replica :=
  { Replica.cleared with busSeq := 800, roster := setOfList [3, 7, 20],
                         table := putAt (Vector.replicate 64 LockEntry.cleared) 12 e }

/-- A configured station in a state, its line in a state. -/
def station (me : Station) (x : StationState) (l : LineState) : State :=
  { State.reset with station := me, sc := { StationController.reset with state := x, config := some profile },
                     lc := { LineController.reset with state := l } }

/-- A member of that bus with the silence timers of the two others running. -/
def member (me : Station) (e : LockEntry) (l : LineState) : State :=
  { station me .member l with
    au := { ApplyUnit.cleared with replica := replica12 e },
    pm := { PresenceMonitor.idle with
            silence := tabulate fun m => if m ∈ [(3 : Station), 7, 20] ∧ m ≠ me then some 0 else none, attained := true } }

/-- The same at the start of a host port transaction. -/
def atPort (s : State) : State := { s with hp := { s.hp with selected := true, phase := .command } }

/-- A record of host origin for lock 12. -/
def record12 (x : RecordState) : HoldRecord :=
  { lock := 12, origin := .host, state := x, holdLimit := 20, generation := none, withdrawAsked := false, holdTimer := none,
    deferred := none }

/-- The station with a record in slot 1. -/
def withRecord (r : HoldRecord) (s : State) : State := { s with rt := { slots := putAt s.rt.slots 1 (some r) } }

/-- The station with entries in its queue. -/
def withQueue (l : List Entry) (s : State) : State := { s with oq := { entries := l } }

/-- An entry whose attempt is under way. -/
def contending (c : Content) : Entry := { newEntry c with contending := true }

/-- The station sends a frame. -/
def sending (f : Frame) (s : State) : State := { s with lc := { s.lc with state := .sending, sending := some f } }

/-- The state after a command. -/
def after (c : Instr) (s : State) : State :=
  match exec c s with
  | .next t => t
  | .fault _ => s
  | .refused _ => s

/-- Station 3 sends its CLAIM of lock 12, free at generation 5. -/
def claimant : State :=
  sending claim12 (withQueue [contending (.claim 12 .wait)] (withRecord (record12 .claiming) (member 3 (lock40 none 5 []) .idle)))

/-- The YIELD of station 3 at step 6 of section 11.1. -/
def yield12 : Frame := { cls := 2, sender := 3, kind := .yield, flags := 0, busSeq := 800, payload := [12, 0, 6] }

/-- Station 7 waits for lock 12 behind station 3. -/
def waiter : State := withRecord (record12 .waiting) (member 7 (lock40 (some 3) 6 [7, 20]) .receiving)

/-- A frame of another member. -/
def frameOf (k : Kind) (c : ArbClass) (p : List Byte) : Frame :=
  { cls := c, sender := 20, kind := k, flags := 0, busSeq := 800, payload := p }

/-! ### Commands on these states -/

/-- Section 11.1, step 1: GRANTED at generation 6, bus sequence 801. -/
theorem test_claim_granted :
    let t := after (.claimFrame (readingOf claim12)) claimant
    t.au.replica.table[(12 : Lock)] = lock40 (some 3) 6 [] ∧ t.au.replica.busSeq = 801 ∧
    (t.rt.slots[(1 : Tier)]).map (fun r => (r.state, r.generation)) = some (.held, some 6) ∧
    t.hp.notices.map (fun x => (x.kind, x.generation, x.busSeq)) = [(.granted, some 6, 801)] ∧
    t.gl.guards[(0 : GrantLine)] = .running 0 ∧ t.oq.entries = [] := by
  decide +kernel

/-- Section 11.1, step 6: the YIELD hands lock 12 to station 7 at generation 7, with its hold timer at 0. -/
theorem test_yield_hands_on :
    let t := after (.yieldFrame (readingOf yield12)) waiter
    t.au.replica.table[(12 : Lock)] = lock40 (some 7) 7 [20] ∧
    (t.rt.slots[(1 : Tier)]).map (fun r => (r.state, r.generation, r.holdTimer)) = some (.held, some 7, some 0) ∧
    t.hp.notices.map (fun x => (x.kind, x.generation, x.busSeq)) = [(.granted, some 7, 801)] := by
  decide +kernel

/-- Section 11.1, step 9: the hold timer of station 7 reaches its limit. -/
theorem test_hold_expires :
    let s := withRecord { record12 .held with generation := some 7, holdTimer := some 200 } (member 7 (lock40 (some 7) 7 [20]) .idle)
    let t := after (.holdExpiry 1) s
    (t.rt.slots[(1 : Tier)]).map (·.state) = some .yielding ∧ t.oq.entries = [newEntry (.yield 12 7 .expired)] ∧
    t.hp.notices.map (·.kind) = [.expired] := by
  decide

/-- Section 11.1, steps 4 and 5: GNT0 is active once its guard has elapsed, and inactive as the YIELD command is taken. -/
theorem test_grant_line :
    let s := withRecord { record12 .held with generation := some 6 } (member 3 (lock40 (some 3) 6 []) .idle)
    let u := after (.guardElapsed 0) { s with gl := { guards := putAt s.gl.guards 0 (.running 3) } }
    grantActive u 0 = true ∧ grantActive (after (.yieldCommand 12) (atPort u)) 0 = false ∧
    (after (.yieldCommand 12) (atPort u)).oq.entries = [newEntry (.yield 12 6 .released)] := by
  decide

/-- Chapter 2, "a drifted station meets the bus", steps 4 and 5: the count reaches 3 with station 3 alone, and the frame of station 17
drops station 8. -/
theorem test_drifted_station :
    let s : State := { station 8 .member .receiving with
      au := { replica := { Replica.cleared with busSeq := 501, roster := setOfList [3, 8, 17] }, streakCount := 2,
              streakSenders := setOfList [3] } }
    let f (t : Station) (q : BusSeq) : Frame :=
      { cls := 7, sender := t, kind := .beacon, flags := 0, busSeq := q, payload := [1, 2] }
    let u := after (.beaconFrame (readingOf (f 3 2002))) s
    u.sc.state = .member ∧ u.au.streakCount = 3 ∧
    (after (.beaconFrame (readingOf (f 17 2003))) { u with lc := { u.lc with state := .receiving } }).hp.notices.map (·.kind)
      = [.desynced] := by
  decide +kernel

/-- Chapter 2, "a transfer round interrupted by an eviction", steps 1 and 5. -/
theorem test_round_starts_and_restarts :
    (askRound true 6 (setOfList [1, 4, 9]) { TransferRecord.cleared with round := 5 }).1
      = { running := true, feeder := 1, round := 6, nextPage := 0, roundList := [6], pendingList := [] } ∧
    leaveRound 1 (setOfList [4, 9]) { running := true, feeder := 1, round := 6, nextPage := 2, roundList := [6], pendingList := [11] }
      = ({ running := true, feeder := 4, round := 7, nextPage := 0, roundList := [6], pendingList := [11] }, [.roundRestarted]) := by
  decide

/-- A bounce shorter than 2 ms is not seen (R135). -/
theorem test_bounce_not_seen :
    let s := after (.rawLevelChange 1 true) (member 3 (lock40 none 5 []) .idle)
    (after (.rawLevelChange 1 false) s).ri = (member 3 (lock40 none 5 []) .idle).ri ∧
    (after (.stableLevelChange 1) s).oq.entries = [newEntry (.claim 20 .wait)] := by
  decide

/-- The bytes of READ_STATUS after a hard reset: UNCONFIGURED and 0 throughout (R207). -/
theorem test_status_after_reset : readStatusBytes State.reset = List.replicate 13 0 := by decide

/-- CONFIGURE stores the record and JOIN then listens; the founding timer at 8P places a FOUND (R75, R76, R77). -/
theorem test_setup :
    let b : Vector Byte 20 := (#v[1, 2, 3, 1, 12, 255, 255, 255, 255, 255, 255, 255, 255, 20, 255, 255, 0, 0, 0, 0] : Vector Byte 20)
    let s := after (.configureCommand b) (atPort State.reset)
    s.sc.config = some profile ∧ (after .joinCommand (atPort s)).sc.state = .listen ∧
    (after .foundingWait (after .joinCommand (atPort s))).oq.entries = [newEntry .found] := by
  decide


/-! ### Witnesses: for each statement with hypotheses, states and operands that meet them -/

/-- Nothing is in an empty place. -/
theorem absent {α : Type} {o : Option α} (h : o = none) {p : α → Prop} : ∀ r, o = some r → p r := by
  intro r hr
  rw [h] at hr
  cases hr

/-- A place holds one thing. -/
theorem present_only {α : Type} {o : Option α} {a : α} (h : o = some a) {p : α → Prop} (ha : p a) : ∀ r, o = some r → p r := by
  intro r hr
  rw [h] at hr
  cases hr
  exact ha

/-- The records of a state are bound if each slot's is. -/
theorem bound_all {s : State} (h : ∀ i : Tier, (s.rt.slots[i]).all (fun r => match r.origin with
      | .host => true
      | .req p => requestBinding s p == some r.lock) = true) : s.recordsBound := by
  intro i r hr
  have hi := h i
  rw [hr] at hi
  cases ho : r.origin with
  | host => exact Or.inl ho
  | req p => exact Or.inr ⟨p, ho, by simpa [ho] using hi⟩

/-- The records whose locks are handed on wait, if each one does. -/
theorem awaits_all {s : State} {gone : Station}
    (h : ∀ l : Lock, s.handed gone l = true → (recordFor s l).all (fun r =>
      (r.state == .waiting || r.state == .withdrawing) && (r.origin == .host)) = true) :
    ∀ l r, s.handed gone l = true → recordFor s l = some r → s.awaits r := by
  intro l r hl hr
  have hi := h l hl
  rw [hr] at hi
  simp only [Option.all_some, Bool.and_eq_true, Bool.or_eq_true, beq_iff_eq] at hi
  exact ⟨hi.1, fun _ => Or.inl hi.2⟩

/-- Station 3 as a member, lock 12 free at generation 5. -/
def member3 : State := member 3 (lock40 none 5 []) .idle

/-- A HELD record of lock 12 at generation 6. -/
def held12 : HoldRecord := { record12 .held with generation := some 6 }

/-- The station with a running hold timer and more. -/
def timed (r : HoldRecord) (n : Nat) : HoldRecord := { r with holdTimer := some n }

theorem witness_StepRunsFrontCommand :
    ({ State.reset with pending := [.hardReset, .joinCommand] } : State).pending = .hardReset :: [.joinCommand] := rfl

/-- Nothing due after reset, and nothing during a hard reset; the own-contact limit due at 10 ms, and not a millisecond before. -/
theorem witness_IdleStepFollowsClock :
    (State.reset.pending = [] ∧ dueLimits State.reset = [] ∧ State.reset.inReset = false) ∧
    ((after .hardReset member3).pending = [] ∧ (after .hardReset member3).inReset = true) ∧
    (let s := { member3 with pm := { member3.pm with ownContact := 10 } }
     s.pending = [] ∧ dueLimits s ≠ [] ∧ nextLimit s = some .ownContactReachesP) ∧
    (let s := { withRecord (timed held12 5) member3 with
                pm := { member3.pm with ownContact := 9 }, gl := { guards := putAt member3.gl.guards 0 (.running 2) } }
     s.pending = [] ∧ dueLimits s = [] ∧ s.inReset = false ∧ s.gl.guards[(0 : GrantLine)] = .running 2 ∧
       ∀ a, s.gl.guards[(1 : GrantLine)] ≠ .running a) := by
  refine ⟨by decide, by decide, by decide, by decide, by decide, by decide, by decide, ?_⟩
  intro a h
  cases h

theorem witness_EveryCommandCompletes : ∀ n r, Instr.joinCommand ≠ .hardResetEnd n r := by
  intro n r h
  cases h

theorem witness_HardResetClearsEveryBlock : (after .hardReset member3).inReset = true := by decide

/-- A record with every field at its lowest or highest value. -/
def edgeRecord (period quorum guard flag binding : Byte) : Vector Byte 20 :=
  (#v[period, quorum, guard, flag, 63, 255, 0, binding, 255, 255, 255, 255, 63, 0, 255, 255, 255, 0, 1, 2] : Vector Byte 20)

theorem witness_ConfigureChecksAndStores :
    (portOpen (atPort member3) = true ∧ (atPort member3).sc.state ≠ .unconfigured) ∧
    (portOpen (atPort State.reset) = true ∧ (atPort State.reset).sc.state = .unconfigured) ∧
    (recordInRange (edgeRecord 0 1 0 0 63) ∧ recordInRange (edgeRecord 3 32 15 1 255)) ∧
    (¬ recordInRange (edgeRecord 4 1 0 0 63) ∧ ¬ recordInRange (edgeRecord 0 0 0 0 63) ∧ ¬ recordInRange (edgeRecord 0 33 0 0 63) ∧
      ¬ recordInRange (edgeRecord 0 1 16 0 63) ∧ ¬ recordInRange (edgeRecord 0 1 0 2 63) ∧
      ¬ recordInRange (edgeRecord 0 1 0 0 64) ∧ ¬ recordInRange (edgeRecord 0 1 0 0 254)) := by
  refine ⟨by decide, by decide, ⟨?_, ?_⟩, ?_, ?_, ?_, ?_, ?_, ?_, ?_⟩ <;> (unfold recordInRange; decide)

theorem witness_JoinTaken :
    (portOpen (atPort (station 3 .ready .idle)) = true ∧ (atPort (station 3 .ready .idle)).sc.state = .ready) ∧
    (portOpen (atPort State.reset) = true ∧ (atPort State.reset).sc.state ≠ .ready) := by
  decide

theorem witness_LeaveTaken :
    (portOpen (atPort member3) = true ∧ (atPort member3).sc.state = .member ∧
      (withRecord held12 (atPort member3)).rt.slots[(1 : Tier)] = some held12) ∧
    (portOpen (atPort (station 3 .listen .idle)) = true ∧ joining (atPort (station 3 .listen .idle)).sc.state = true) ∧
    (portOpen (atPort (station 3 .departing .idle)) = true ∧ (atPort (station 3 .departing .idle)).sc.state ≠ .member ∧
      joining (atPort (station 3 .departing .idle)).sc.state = false) := by
  decide

theorem witness_ResetTaken : portOpen (atPort member3) = true ∧ portOpen (atPort State.reset) = true := by decide

/-- The first lock and mode out of range, and the last in range. -/
theorem witness_ClaimTaken_range :
    portOpen (atPort member3) = true ∧ ((64 : Byte).toNat > 63 ∨ (0 : Byte).toNat > 1) ∧ ((63 : Byte).toNat > 63 ∨ (2 : Byte).toNat > 1) ∧
    (1 : Byte).toNat ≤ 1 ∧ (63 : Byte).toNat = (63 : Lock).val := by
  decide

theorem witness_ClaimTaken_refused :
    (portOpen (atPort State.reset) = true ∧ (atPort State.reset).sc.state ≠ .member) ∧
    (let s := atPort (withRecord held12 member3)
     portOpen s = true ∧ s.sc.state = .member ∧ requestBinding s 1 = some 20 ∧
     (∀ p, requestBinding s p ≠ some 12) ∧ s.rt.slots[tierOf 12] = some held12 ∧ held12.lock = 12 ∧
     (∀ p, requestBinding s p ≠ some 15) ∧ tierOf 15 = 1 ∧ held12.lock ≠ 15 ∧
     (∃ i : Tier, (s.rt.slots[i]).isSome = true ∧ tierOf 15 ≤ i)) ∧
    (let s := atPort (withRecord (record12 .claiming) member3)
     portOpen s = true ∧ s.sc.state = .member ∧ (∀ p, requestBinding s p ≠ some 16) ∧ s.rt.slots[tierOf 16] = none ∧
     (∀ i : Tier, (s.rt.slots[i]).isSome = true → i < tierOf 16) ∧
     s.rt.slots[(1 : Tier)] = some (record12 .claiming) ∧ isPending (record12 .claiming) = true) := by
  decide

theorem witness_ClaimTaken_ok :
    portOpen (atPort member3) = true ∧ (atPort member3).sc.state = .member ∧
    (∀ p, requestBinding (atPort member3) p ≠ some 12) ∧
    (∀ r, (atPort member3).rt.slots[tierOf 12] = some r → r.lock ≠ 12) ∧
    (∀ i : Tier, ((atPort member3).rt.slots[i]).isSome = true → i < tierOf 12) ∧
    (∀ (i : Tier) r, (atPort member3).rt.slots[i] = some r → isPending r = false) := by
  have e : ∀ i : Tier, (atPort member3).rt.slots[i] = none := by decide
  exact ⟨by decide, by decide, by decide, absent (e _), by decide, fun i => absent (e i)⟩

theorem witness_LockCommandsRefused :
    (portOpen (atPort member3) = true ∧ (64 : Byte).toNat > 63) ∧
    (portOpen (atPort State.reset) = true ∧ (63 : Byte).toNat ≤ 63 ∧ (atPort State.reset).sc.state ≠ .member) ∧
    ((atPort member3).sc.state = .member ∧ requestBinding (atPort member3) 1 = some 20 ∧ (20 : Lock).val = (20 : Byte).toNat) := by
  decide

/-- HELD with and without the mark, with no hold limit and the shortest and longest; no record, and a WAITING one. -/
theorem witness_YieldAndRenewTaken :
    (∀ (m : Bool) (n : Fin 3), let r := { held12 with withdrawAsked := m, holdLimit := [0, 1, 255][n] }
      portOpen (atPort (withRecord r member3)) = true ∧ (atPort (withRecord r member3)).sc.state = .member ∧
      (∀ p, requestBinding (atPort (withRecord r member3)) p ≠ some 12) ∧
      (atPort (withRecord r member3)).rt.slots[tierOf 12] = some r ∧ r.lock = 12 ∧ r.state = .held ∧ r.withdrawAsked = m) ∧
    (∀ r, (atPort member3).rt.slots[tierOf 12] = some r → r.lock = 12 → r.state ≠ .held) ∧
    (∀ r, (atPort (withRecord (record12 .waiting) member3)).rt.slots[tierOf 12] = some r → r.lock = 12 → r.state ≠ .held) := by
  have e : (atPort member3).rt.slots[tierOf 12] = none := by decide
  have f : (atPort (withRecord (record12 .waiting) member3)).rt.slots[tierOf 12] = some (record12 .waiting) := by decide
  exact ⟨by decide, absent e, present_only f fun _ => by decide⟩

/-- Lock 64 is out of range; the standing of a lock at a member, in COLLECTING and at a station that does not vote; a HELD record with
and without a running hold timer. -/
theorem witness_TableReadsTaken :
    (portOpen (atPort member3) = true ∧ (64 : Byte).toNat > 63) ∧
    (present (atPort member3).sc.state = true ∧ (station 3 .collecting .idle).sc.state = .collecting ∧
      voting (station 3 .asking .idle).sc.state = false ∧ present (station 3 .asking .idle).sc.state = false) ∧
    ((withRecord (timed held12 199) (atPort member3)).rt.slots[(1 : Tier)] = some (timed held12 199) ∧
      (timed held12 199).state = .held ∧ (timed held12 199).holdTimer = some 199) ∧
    ((atPort member3).rt.slots[(1 : Tier)] = none ∧ (record12 .waiting).state ≠ .held) := by
  decide

/-- A GRANTED notice of lock 12. -/
def granted12 : Notice := lockNoticeOf .granted 12 (some 6) .none member3

/-- The station with a number of notices waiting. -/
def noted (n : Nat) (s : State) : State := { s with hp := { s.hp with notices := List.replicate n granted12 } }

/-- Each record state, a CLAIM that is QUEUED and one that is CONTENDING, and a QUEUED one with the notice queue full. -/
theorem witness_WithdrawTaken :
    (∀ k : Fin 6, let x := [RecordState.claiming, .claiming, .claiming, .waiting, .claimCancel, .withdrawing][k]
      let q := [[], [], [contending (.claim 12 .wait)], [], [contending (.claim 12 .wait)], [newEntry (.withdraw 12)]][k]
      let s := noted ([0, 16, 0, 0, 0, 0][k]) (atPort (withQueue q (withRecord (record12 x) member3)))
      portOpen s = true ∧ s.sc.state = .member ∧ (∀ p, requestBinding s p ≠ some 12) ∧
      s.rt.slots[tierOf 12] = some (record12 x) ∧ slotContends .claim (tierOf 12) s = decide (k = 2 ∨ k = 4)) ∧
    (∀ r, (atPort member3).rt.slots[tierOf 12] = some r → r.lock = 12 → r.state = .held ∨ r.state = .yielding) ∧
    (∀ r, (atPort (withRecord held12 member3)).rt.slots[tierOf 12] = some r → r.lock = 12 → r.state = .held ∨ r.state = .yielding) := by
  have e : (atPort member3).rt.slots[tierOf 12] = none := by decide
  have f : (atPort (withRecord held12 member3)).rt.slots[tierOf 12] = some held12 := by decide
  exact ⟨by decide, absent e, present_only f fun _ => Or.inl rfl⟩

/-- An empty queue and one of two notices; each completion from both phases, by each result code; and a status with both flags set. -/
theorem witness_NoticeAndStatusReadTaken :
    (portOpen (atPort member3) = true ∧ (atPort member3).hp.notices = []) ∧
    (let s := atPort (noted 2 member3)
     portOpen s = true ∧ s.hp.notices = granted12 :: [granted12]) ∧
    (∀ (n : Fin 2) (ph : Fin 2), let s := atPort (noted n.val member3)
      let t := { after .readNoticeCommand s with
                 hp := clockBits (8 * ph.val) (after .readNoticeCommand s).hp }
      t.hp.phase = [Phase.turnaround, .result][ph] ∧ t.hp.taken = some .readNotice ∧
      t.hp.resultCode = some ([ResultCode.empty, .ok][n])) ∧
    (let s := atPort { member3 with hp := { member3.hp with overflow := true, truncated := true } }
     let t := after .readStatusCommand s
     portOpen s = true ∧ t.hp.phase = .turnaround ∧ t.hp.taken = some .readStatus ∧ t.hp.resultCode = some .ok ∧
     t.hp.resultData = 0x08 :: 0 :: 7 :: [0, 3, 32, 3, 0, 3, 0, 0, 0, 0]) := by
  decide

/-- The codes beside the known ones are unknown. -/
theorem witness_TransactionPhases :
    (State.reset.inReset = false ∧ State.reset.hp.selected = false) ∧
    (portOpen (atPort member3) = true ∧
      [0x00, 0x0F, 0x14, 0x1F, 0x24, 0x2F, 0x35, 0xFF].map commandOfCode = List.replicate 8 none) ∧
    (State.reset.hp.phase ≠ .arguments ∧ (atPort member3).hp.phase ≠ .arguments) ∧ (atPort member3).hp.phase = .command := by
  decide

/-- No argument, the last but one, and all of them, of a command with none and with three. -/
theorem witness_PortBytes :
    (([] : List Byte).length = argumentBytes .join ∧ ([12, 0, 20] : List Byte).length = argumentBytes .claim) ∧
    (atPort member3).hp.phase = .command ∧ ([12, 0] : List Byte).length ≤ argumentBytes .claim := by
  decide

/-- The commands that bytes spell, by the codes of R206: JOIN 0x11, CLAIM 0x20 of lock 12 in mode TRY with hold limit 20, the unknown
0x7F, a CLAIM cut short, and no byte. -/
theorem test_commands_of_bytes :
    decodeTableWord 8 0x11 = some .joinCommand ∧ decodeTableWord 32 0x14010C20 = some (.claimCommand 12 1 20) ∧
    decodeTableWord 8 0x7F = some (.unknownCommand 0x7F) ∧ commandOfBytes [0x20, 12, 1] = none ∧ decodeTableWord 0 0 = none := by
  decide

/-- JOIN in UNCONFIGURED is answered STATE, 0x01 (R188, R206): 16 cycles after the take SDO has shifted out a filler byte and the
code, and filler follows. -/
theorem test_result_shifted_out :
    let p := (after .joinCommand (atPort State.reset)).hp
    shiftOut 24 p = (([0x00, 0x01, 0x00] : List Byte).flatMap bitsOf).map some ∧ (clockBits 16 p).phase = .filler := by
  decide

/-- The due conditions that BusOpportunitySelects spells out (R148) are met at every state. -/
theorem witness_due (s : State) :
    (∀ m : Station, entryDue s (.evict m) = true ↔
      s.au.replica.roster[m] = true ∧ ∃ a, s.pm.silence[m] = some a ∧ 5 * beaconPeriod s ≤ a) ∧
    (entryDue s .page = true ↔ (s.sc.state = .member ∨ s.sc.state = .departing) ∧ s.au.replica.transfer.running = true ∧
      s.au.replica.transfer.feeder = s.station) ∧
    (entryDue s .beacon = true ↔ s.sc.state = .member ∨ s.sc.state = .departing) ∧
    (entryDue s .found = true ↔ s.sc.state = .founding) ∧
    (∀ c, (∀ m, c ≠ .evict m) → c ≠ .page → c ≠ .beacon → c ≠ .found → entryDue s c = true) := by
  have hp : present s.sc.state = true ↔ s.sc.state = .member ∨ s.sc.state = .departing := by cases s.sc.state <;> decide
  refine ⟨fun m => ?_, ?_, ?_, ?_, fun c h1 h2 h3 h4 => ?_⟩
  · cases h : s.pm.silence[m] <;> simp [entryDue, overAbsence, h]
  · simp [entryDue, feederDuty, hp, and_assoc]
  · simp [entryDue, hp]
  · simp [entryDue]
  · cases c with
    | evict m => exact absurd rfl (h1 m)
    | page => exact absurd rfl h2
    | beacon => exact absurd rfl h3
    | found => exact absurd rfl h4
    | _ => rfl

/-- Chapter 7: of three QUEUED entries the oldest of the lowest class, here the CLAIM; only a FOUND and a PAGE that are no longer due; and an
EVICT that is no longer due while another member is silent for 5P. -/
theorem witness_BusOpportunitySelects :
    (let s := withQueue [newEntry .beacon, newEntry (.claim 12 .wait), newEntry .page] member3
     s.inReset = false ∧ s.lc.state = .idle ∧ (∀ e ∈ s.oq.entries, e.contending = false) ∧ s.oq.entries ≠ [] ∧
     (∀ e ∈ s.oq.entries, ownerOf e.content = .evict → entryDue s e.content = true) ∧
     s.oq.entries.filter (fun x => entryDue s x.content) ++ [] = [newEntry .beacon] ++ newEntry (.claim 12 .wait) :: [] ∧
     (∀ x ∈ [newEntry .beacon], (newEntry (.claim 12 .wait)).cls < x.cls) ∧
     (∀ x ∈ ([] : List Entry), (newEntry (.claim 12 .wait)).cls ≤ x.cls)) ∧
    (let s := withQueue [newEntry .page, newEntry .found] member3
     s.inReset = false ∧ s.lc.state = .idle ∧ (∀ e ∈ s.oq.entries, e.contending = false) ∧ s.oq.entries ≠ [] ∧
     (∀ e ∈ s.oq.entries, ownerOf e.content = .evict → entryDue s e.content = true) ∧
     (∀ e ∈ s.oq.entries, entryDue s e.content = false)) ∧
    (let s := withQueue [newEntry (.evict 20)] { member3 with pm := { member3.pm with silence := putAt member3.pm.silence 7 (some 50) } }
     s.inReset = false ∧ s.lc.state = .idle ∧ (∀ e ∈ s.oq.entries, e.contending = false) ∧ s.oq.entries ≠ [] ∧
     present s.sc.state = true ∧ (∃ e ∈ s.oq.entries, ownerOf e.content = .evict) ∧
     (∀ e ∈ s.oq.entries, ownerOf e.content = .evict → entryDue s e.content = false) ∧
     s.pm.silence[(7 : Station)] = some 50 ∧ 5 * beaconPeriod s = 50 ∧
     (∀ k : Station, k < 7 → (s.pm.silence[k]).any (fun b => decide (50 ≤ b)) = false) ∧
     s.oq.entries.filter (fun x => entryDue s x.content) ++ [newEntry (.evict 7)] = [] ++ newEntry (.evict 7) :: []) := by
  decide

/-- R147, R166: an entry returned by an unconfirmed own start bit, its line in IDLE, is sent again at the next opportunity (log entry 36). -/
theorem test_opportunity_after_unconfirmed :
    let s := withQueue [newEntry .beacon] member3
    let t := after .unconfirmedStartBit (after .busOpportunity s)
    t.oq.entries = [newEntry .beacon] ∧ t.lc.state = .idle ∧ (after .busOpportunity t).oq.entries = [contending .beacon] := by
  decide

theorem witness_LineFollowsBus :
    (member3.inReset = false ∧ member3.lc.state = .idle) ∧ State.reset.lc.state = .seeking ∧
    (member 3 (lock40 none 5 []) .closing).lc.state = .closing := by
  decide

/-- Station 3 with an attempt of an entry under way, its counts at their last values before a limit. -/
def attempting (x : StationState) (y : LineState) (e : Entry) : State :=
  let s := withQueue [e] (station 3 x y)
  { s with lc := { s.lc with sending := some claim12, rxFaults := 7, txFaults := 6, collisions := 2 } }

/-- A reading of the CLAIM whose verdict bit came back otherwise: a collision (R174). -/
def collided : Reading := { readingOf claim12 with gap := false }

/-- A reading of the CLAIM in which its mode byte, sent dominant, came back recessive: a transmit mismatch (R174). -/
def faded : Reading :=
  { readingOf claim12 with cells := (readingOf claim12).cells.mapIdx fun i c => if i = 7 then { c with data := 0xFF } else c }

/-- The three commands that end an attempt, at counts just below the limits of R175 and R177. -/
theorem witness_endsAttempt (s : State) (x : StationState) (y : LineState) (e : Entry) (h : s.lc = (attempting x y e).lc) :
    (y = .sending → ∃ z, s.endsAttempt .arbitrationLost false z ∧ ¬ z.mute) ∧
    (y = .idle → ∃ z, s.endsAttempt .unconfirmedStartBit true z ∧ ¬ z.mute) ∧
    (y = .sending → ∃ z, s.endsAttempt (.frameVoided collided) true z ∧ ¬ z.mute) := by
  have hl : s.lc.state = y := by rw [h]; rfl
  have hs : s.lc.sending = some claim12 := by rw [h]; rfl
  have hr : s.lc.rxFaults = 7 := by rw [h]; rfl
  have ht : s.lc.txFaults = 6 := by rw [h]; rfl
  have hc : s.lc.collisions = 2 := by rw [h]; rfl
  refine ⟨fun k => ?_, fun k => ?_, fun k => ?_⟩
  · refine ⟨_, Or.inl ⟨rfl, rfl, hl.trans k, rfl⟩, ?_⟩
    simp [LineController.mute, hr, ht]
  · refine ⟨_, Or.inr (Or.inl ⟨rfl, rfl, hl.trans k, rfl⟩), ?_⟩
    rintro (⟨h8, -⟩ | h8)
    · exact absurd (hr.symm.trans h8) (by decide)
    · by_cases v : voting s.sc.state = true <;> simp [v, ht] at h8
  · refine ⟨_, Or.inr (Or.inr ⟨claim12, collided, rfl, rfl, hl.trans k, hs, fun _ => by rw [hc]; decide, rfl⟩), ?_⟩
    rintro (⟨h8, -⟩ | h8)
    · exact absurd (hr.symm.trans h8) (by decide)
    · by_cases v : voting s.sc.state = false <;> by_cases m : mistransmitIn (frameCells claim12) collided = true <;>
        simp [v, m, ht] at h8

/-- An entry with a discard mark; a BEACON, and a SYNC_ASK at its fifteenth void; and each joining entry at its sixteenth. -/
theorem witness_StationAttemptEnds :
    ∀ (k : Fin 6) (y : Fin 2),
      let c := [Content.claim 12 .wait, .beacon, .syncAsk, .found, .syncAsk, .enrol][k]
      let e := { contending c with voids := [0, 0, 14, 15, 15, 15][k], discard := decide (k = 0) }
      let s := attempting ([StationState.ready, .member, .asking, .founding, .asking, .enrolling][k]) ([LineState.idle, .sending][y]) e
      s.attempts [] e [] ∧ (k = 0 ↔ e.discard = true) ∧ (k = 1 ∨ k = 2 → isRequest e.content = false) ∧
      (k = 2 → abandonable e.content = true ∧ e.voids < 15) ∧ (k.val ≥ 3 → 15 ≤ e.voids) := by
  simp only [State.attempts]
  decide

/-- An ENROL at its sixteenth void, at the eighth transmit fault. -/
theorem witness_StationAttemptEnds_mute :
    let e := { contending .enrol with voids := 15 }
    let s0 := attempting .enrolling .idle e
    let s := { s0 with lc := { s0.lc with txFaults := 7 } }
    s.attempts [] e [] ∧ e.discard = false ∧ s.sc.state = .enrolling ∧ 15 ≤ e.voids ∧
    ∃ x, s.endsAttempt .unconfirmedStartBit true x ∧ x.mute := by
  simp only [State.attempts]
  exact ⟨by decide, rfl, rfl, by decide, _, Or.inr (Or.inl ⟨rfl, rfl, rfl, rfl⟩), Or.inr (by decide)⟩

/-- A request frame in DEPARTING with and without its record; in MEMBER a YIELD, a WITHDRAW of each record state, and a CLAIM below and at
its sixteenth void, and withdrawn. -/
theorem witness_RequestAttemptEnds :
    (∀ b : Bool, let e := contending (.yield 12 6 .released)
      let s0 := attempting .departing .sending e
      let s := if b then withRecord held12 s0 else s0
      s.attempts [] e [] ∧ e.discard = false ∧ s.sc.state = .departing ∧ ownerOf e.content = .slot 1 ∧
      s.rt.slots[(1 : Tier)] = (if b then some held12 else none)) ∧
    (let e := contending (.yield 12 6 .released)
     (attempting .member .sending e).attempts [] e [] ∧ (attempting .member .sending e).sc.state = .member) ∧
    (∀ x : Fin 3, let r := [record12 .withdrawing, { held12 with withdrawAsked := true },
          { record12 .yielding with generation := some 6, withdrawAsked := true, deferred := some .expired }][x]
      let e := contending (.withdraw 12)
      let s := withRecord r (attempting .member .sending e)
      s.attempts [] e [] ∧ s.sc.state = .member ∧ recordFor s 12 = some r ∧ (x = 0 → r.state = .withdrawing) ∧
      (x ≠ 0 → r.state = .held ∨ r.state = .yielding)) ∧
    (∀ x : Fin 3, let r := record12 ([RecordState.claiming, .claiming, .claimCancel][x])
      let e := { contending (.claim 12 .wait) with voids := [14, 15, 15][x] }
      let s := withRecord r (attempting .member .sending e)
      s.attempts [] e [] ∧ s.sc.state = .member ∧ recordFor s 12 = some r ∧ r.origin = .host ∧
      (∀ y ∈ ([] ++ [] : List Entry), ownerOf y.content ≠ ownerOf e.content) ∧ (x = 0 → e.voids < 15) ∧ (x ≠ 0 → 15 ≤ e.voids)) := by
  simp only [State.attempts]
  decide

/-- A length of 51, and one whose turn bit fails; a sender known and unknown; the count at 7 and at 8 with faults of one sender alone; a
station that does not vote. -/
theorem witness_FrameLostCountsFault :
    (∀ n : Fin 3, let s := { member 3 (lock40 none 5 []) .receiving with
        lc := { LineController.reset with state := .receiving, rxFaults := [6, 7, 8][n], faultSenders := setOfList [3] } }
      s.inReset = false ∧ s.lc.state = .receiving ∧ voting s.sc.state = true ∧
      (after (.frameLost [cellOf 0xA3, cellOf 0x10, cellOf 51]) s).lc.rxFaults = [7, 8, 8][n] ∧
      ¬ (after (.frameLost [cellOf 0xA3, cellOf 0x10, cellOf 51]) s).lc.mute) ∧
    (station 3 .listen .receiving).lc.state = .receiving ∧ voting (station 3 .listen .receiving).sc.state = false ∧
    (cellOf 51).data.toNat > 50 ∧ turnHolds { data := 2, turn := false } = false ∧ turnHolds (cellOf 0xA3) = true ∧
    turnHolds { data := 0xA3, turn := true } = false := by
  simp only [LineController.mute]
  decide +kernel

/-- A frame clean here, and one that failed here with the count at 6, 7 and 8 and one sender; and at the sender, with that count. -/
theorem witness_FrameVoidedAppliedByNone :
    (∀ n : Fin 3, let s0 := member 7 (lock40 none 5 []) .receiving
      let s := { s0 with lc := { s0.lc with rxFaults := [6, 7, 8][n], faultSenders := setOfList [3] } }
      s.inReset = false ∧ s.lc.state = .receiving ∧ voting s.sc.state = true ∧
      receive (readingOf claim12) = .clean claim12 ∧ receive { readingOf claim12 with gap := false } = .failed (some 3) ∧
      ¬ (after (.frameVoided { readingOf claim12 with gap := false }) s).lc.mute) ∧
    (let f : Frame := { claim12 with cls := 7, kind := .beacon, payload := [1, 2] }
     let e := contending .beacon
     let s0 := sending f (withQueue [e] member3)
     let s := { s0 with lc := { s0.lc with rxFaults := 8, txFaults := 7, faultSenders := setOfList [7] } }
     s.sends (readingOf f) f ∧ s.oq.entries = [] ++ e :: [] ∧ e.contending = true ∧ e.discard = false ∧
     isRequest e.content = false ∧ (∀ x ∈ ([] ++ [] : List Entry), x.contending = false) ∧
     (abandonable e.content = true → e.voids < 15) ∧ ¬ ({ s.lc with txFaults := 0 } : LineController).mute) := by
  simp only [State.sends, LineController.mute]
  decide +kernel

/-- An ENROL at its sixteenth void and a fourth collision; and receive faults at 7 and 8, the two fault senders station 20 and the unknown
one, and stations 3 and 20. -/
theorem witness_LineFaultsDrop :
    (let e := { contending .enrol with voids := 15 }
     let s0 := withQueue [e] (station 3 .enrolling .sending)
     let s := { s0 with lc := { s0.lc with sending := some claim12, collisions := 3 } }
     s.inReset = false ∧ voting s.sc.state = true ∧ s.rt = .empty ∧ s.attempts [] e [] ∧ e.discard = false ∧
     s.sc.state = .enrolling ∧ s.lc.state = .sending ∧ s.lc.collisions = 3) ∧
    (∀ n : Fin 2, let s := { member3 with lc := { LineController.reset with
                  state := .receiving, rxFaults := [7, 8][n], faultUnknown := true, faultSenders := setOfList [20] } }
     s.inReset = false ∧ voting s.sc.state = true ∧ s.lc.state = .receiving ∧ 7 ≤ s.lc.rxFaults ∧
     (turnHolds (cellOf 51) = false ∨ (cellOf 51).data.toNat > 50) ∧ (none : Option Station) ≠ some 20 ∧
     s.lc.faultedBy (faultSender (cellOf 0xA3)) none ∧ s.lc.faultedBy (faultSender (cellOf 0xA3)) (some 20) ∧
     faultSender (cellOf 0xA3) = some 3 ∧ receive collided = .failed (some 3) ∧ (some 3 : Option Station) ≠ some 20 ∧
     s.lc.faultedBy (some 3) (some 3) ∧ s.lc.faultedBy (some 3) (some 20)) ∧
    (∀ (i : Tier) r, member3.rt.slots[i] = some r → member3.bound r) := by
  simp only [LineController.faultedBy, State.attempts]
  refine ⟨by decide +kernel, by decide +kernel, fun i => absent ?_⟩
  revert i
  decide

/-- A lock page of four images of one entry, for a round and page number. -/
def lockPage (round number : Byte) (e : LockEntry) : List Byte :=
  [round, number] ++ (imageOf e ++ imageOf e ++ imageOf e ++ imageOf e)

/-- Frames of each size: none, the largest, and a page 0. -/
theorem witness_FrameReadsBack :
    lengthMatches .depart [] = true ∧ lengthMatches .yield [12, 0, 6] = true ∧ lengthMatches .page (lockPage 5 16 (lock40 none 5 [])) = true ∧
    (lockPage 5 16 (lock40 none 5 [])).length = 50 ∧ lengthMatches .page [6, 0, 4, 2, 4, 9, 1, 6, 0] = true := by
  decide

/-- Both lists full; the first and the last lock page, whose last image is lock 63; an entry with 8 waiters. -/
theorem witness_PagesReadBack :
    (let r := { replica12 (lock40 none 5 []) with
                transfer := { TransferRecord.cleared with running := true, feeder := 3, roundList := [6, 8, 9, 31],
                                                          pendingList := [0, 1, 2, 4] } }
     r.transfer.nextPage = 0 ∧ r.roster[r.transfer.feeder] = true ∧ r.transfer.roundList.length ≤ 4 ∧ r.transfer.roundList.Nodup ∧
     r.transfer.pendingList.length ≤ 4 ∧ r.transfer.pendingList.Nodup) ∧
    (∀ k : Fin 2, let r := { Replica.cleared with transfer := { TransferRecord.cleared with running := true, nextPage := [1, 16][k] } }
      1 ≤ r.transfer.nextPage ∧ r.transfer.nextPage ≤ 16 ∧ ([0, 63][k] : Lock).val = 4 * (r.transfer.nextPage - 1) + [0, 3][k]) ∧
    (lock40 (some 3) 6 [0, 1, 2, 4, 5, 6, 7, 31]).waiters.length ≤ 8 := by
  decide

/-- Station 7 as a receiver, with lock 12 as given; station 20 sends. -/
def hearer (e : LockEntry) : State := member 7 e .receiving

/-- A station whose Q is 3, the size of the roster of these tests. -/
def atQuorum (s : State) : State := { s with sc := { s.sc with config := some { profile with quorum := 3 } } }

/-- A station that sends a frame of its own, in a state, with an entry under way. -/
def sender (x : StationState) (e : LockEntry) (c : Content) (f : Frame) : State :=
  let s := sending f (withQueue [contending c] (member 3 e .idle))
  { s with sc := { s.sc with state := x } }

/-- A frame of station 3. -/
def ownFrame (k : Kind) (c : ArbClass) (p : List Byte) : Frame :=
  { cls := c, sender := 3, kind := k, flags := 0, busSeq := 800, payload := p }

/-- A station in COLLECTING with n pages collected, its next page n + 1 of round 5, fed by station 3. -/
def collector (n : Nat) : State :=
  { station 6 .collecting .receiving with
    au := { ApplyUnit.cleared with replica := { replica12 .cleared with
              transfer := { running := true, feeder := 3, round := 5, nextPage := n + 1, roundList := [6], pendingList := [] } } },
    tc := { collected := n, uncollected := tabulate fun l => decide (4 * n ≤ l.val) } }

/-- The hypotheses of a frame received in step. -/
theorem witness_receives :
    ∀ k : Fin 4, let f := [frameOf .claim 5 [12, 0], frameOf .yield 2 [12, 0, 6], frameOf .withdraw 3 [12], frameOf .evict 0 [3]][k]
      (hearer (lock40 (some 20) 6 [])).receives (readingOf f) f ∧ (hearer (lock40 (some 20) 6 [])).inStep f ∧
      f.sender ≠ (hearer (lock40 (some 20) 6 [])).station := by
  simp only [State.receives, State.hears, State.inStep]
  decide +kernel

/-- An uncollected lock; a free lock; a lock held by the sender, waited for by the sender, and held by another with 8 and with 7 waiters. -/
theorem witness_ClaimFrameApplied :
    (let f := frameOf .claim 5 [12, 0]
     (collector 0).receives (readingOf f) f ∧ f.kind = .claim ∧ (collector 0).inStep f ∧
     (collector 0).tc.uncollected[lockField f.payload] = true) ∧
    (∀ k : Fin 5, let e := [lock40 none 65535 [], lock40 (some 20) 6 [], lock40 (some 3) 6 [20], lock40 (some 3) 6 [0, 1, 2, 4, 5, 6, 8, 9],
                            lock40 (some 3) 6 [0, 1, 2, 4, 5, 6, 8]][k]
      let f := frameOf .claim 5 [12, 0]
      (hearer e).receives (readingOf f) f ∧ f.kind = .claim ∧ (hearer e).inStep f ∧
      (hearer e).tc.uncollected[lockField f.payload] = false ∧ modeField f.payload = .wait ∧
      (hearer e).au.replica.table[lockField f.payload] = e ∧ f.sender ≠ (hearer e).station) ∧
    modeField [12, 1] = .tryOnly := by
  simp only [State.receives, State.hears, State.inStep]
  decide +kernel

/-- The yield of lock 12 by station 20, free of waiters and handed to station 9, and two yields that are stale. Handed to this station, in
MEMBER and in DEPARTING: its record waits, or is being withdrawn, its WITHDRAW QUEUED or CONTENDING. -/
theorem witness_YieldFrameApplied :
    (∀ k : Fin 4, let e := [lock40 (some 20) 6 [], lock40 (some 20) 6 [9, 7], lock40 (some 20) 5 [9], lock40 (some 3) 6 [9]][k]
      let f := frameOf .yield 2 [12, 0, 6]
      (hearer e).receives (readingOf f) f ∧ f.kind = .yield ∧ (hearer e).inStep f ∧
      (hearer e).tc.uncollected[lockField f.payload] = false ∧ f.sender ≠ (hearer e).station ∧
      (hearer e).au.replica.table[lockField f.payload] = e ∧ e.waiters.head? ≠ some (hearer e).station ∧
      generationField f.payload = 6) ∧
    (∀ (k : Fin 3) (b : Bool), let f := frameOf .yield 2 [12, 0, 6]
      let r := { record12 ([RecordState.waiting, .withdrawing, .withdrawing][k]) with withdrawAsked := decide (k ≠ 0) }
      let s0 := withQueue ([[], [newEntry (.withdraw 12)], [contending (.withdraw 12)]][k])
        (withRecord r (hearer (lock40 (some 20) 6 [7, 9])))
      let s := { s0 with sc := { s0.sc with state := if b then .member else .departing } }
      s.receives (readingOf f) f ∧ s.inStep f ∧ s.tc.uncollected[lockField f.payload] = false ∧
      s.au.replica.table[lockField f.payload] = lock40 (some f.sender) (generationField f.payload) (7 :: [9]) ∧ s.station = 7 ∧
      f.sender ≠ s.station ∧ recordFor s (lockField f.payload) = some r ∧ s.awaits r ∧ s.pinFell r = false ∧
      s.markStays r = decide (k = 2)) := by
  simp only [State.receives, State.hears, State.inStep, State.awaits, State.bound]
  decide +kernel

/-- A YIELD and a WITHDRAW of a lock that is not collected. -/
theorem witness_uncollected :
    ∀ k : Fin 2, let f := [frameOf .yield 2 [12, 0, 6], frameOf .withdraw 3 [12]][k]
      (collector 3).receives (readingOf f) f ∧ f.kind = [Kind.yield, .withdraw][k] ∧ (collector 3).inStep f ∧
      (collector 3).tc.uncollected[lockField f.payload] = true := by
  simp only [State.receives, State.hears, State.inStep]
  decide +kernel

theorem witness_WithdrawFrameApplied :
    ∀ k : Fin 3, let e := [lock40 (some 3) 6 [9, 20, 7], lock40 (some 20) 6 [9], lock40 none 6 []][k]
      let f := frameOf .withdraw 3 [12]
      (hearer e).receives (readingOf f) f ∧ f.kind = .withdraw ∧ (hearer e).inStep f ∧
      (hearer e).tc.uncollected[lockField f.payload] = false ∧ f.sender ≠ (hearer e).station ∧
      (hearer e).au.replica.table[lockField f.payload] = e ∧
      (k = 0 → e.waiters = [9] ++ f.sender :: [7] ∧ f.sender ∉ [(9 : Station)]) ∧ (k ≠ 0 → f.sender ∉ e.waiters) := by
  simp only [State.receives, State.hears, State.inStep]
  decide +kernel

/-- The highest station as a target that is no member, and station 3, a member, that holds lock 12; then a receiver that waits behind it for
lock 12, the smaller roster at Q and below it. -/
theorem witness_EvictFrameApplied :
    (∀ k : Fin 2, let f := frameOf .evict 0 [[31, 3][k]]
      let s := hearer (lock40 (some 3) 6 [20])
      s.receives (readingOf f) f ∧ f.kind = .evict ∧ s.inStep f ∧ s.au.replica.roster[targetField f.payload] = decide (k = 1) ∧
      targetField f.payload ≠ s.station ∧ present s.sc.state = true ∧ s.sc.state = .member) ∧
    (∀ b : Bool, let f := frameOf .evict 0 [3]
      let s0 := withRecord (record12 .waiting) (hearer (lock40 (some 3) 6 [7, 20]))
      let s := if b then atQuorum s0 else s0
      (s.receives (readingOf f) f ∧ s.inStep f ∧ targetField f.payload = 3 ∧ s.au.replica.roster[(3 : Station)] = true ∧
        s.sc.state = .member ∧ s.handed 3 12 = true ∧ recordFor s 12 = some (record12 .waiting)) ∧
      ∀ l r, s.handed 3 l = true → recordFor s l = some r → s.awaits r) := by
  simp only [State.receives, State.hears, State.inStep]
  refine ⟨by decide +kernel, fun b => ⟨by revert b; decide +kernel, awaits_all ?_⟩⟩
  revert b
  decide +kernel

/-- Chapter 3 (R71): an EVICT hands lock 12 to this station and takes the roster below Q. GRANTED, PEER_LEFT and FENCED follow in that
order, the stranding timer starts (R67), and the guard of the granted lock does not (R130). -/
theorem test_quorum_lost :
    let f := frameOf .evict 0 [3]
    let t := after (.evictFrame (readingOf f)) (atQuorum (withRecord (record12 .waiting) (hearer (lock40 (some 3) 6 [7, 20]))))
    t.hp.notices.map (fun x => (x.kind, x.lock, x.qualifier))
      = [(.granted, some 12, .none), (.peerLeft, none, .left .evicted), (.fenced, none, .fence .quorum)] ∧
    t.pm.stranding = some 0 ∧ t.pm.attained = true ∧ t.gl = .stopped := by
  decide +kernel

/-- An EVICT at a station that collects from its target, and at an enrolling one whose roster names the target alone, and with another. -/
theorem witness_EvictFrameApplied_joining :
    (let f := frameOf .evict 0 [3]
     let s := collector 0
     s.receives (readingOf f) f ∧ f.kind = .evict ∧ s.inStep f ∧ s.au.replica.roster[targetField f.payload] = true ∧ s.rt = .empty ∧
     s.sc.state = .collecting ∧ s.au.replica.transfer.running = true ∧ s.au.replica.transfer.feeder = targetField f.payload) ∧
    (∀ k : Fin 2, let f := frameOf .evict 0 [20]
      let s0 := station 6 .enrolling .receiving
      let s := s0.withReplica { Replica.cleared with busSeq := 800, roster := setOfList ([[20], [3, 20]][k]) }
      s.receives (readingOf f) f ∧ s.inStep f ∧ s.au.replica.roster[targetField f.payload] = true ∧ s.rt = .empty ∧
      s.au.replica.roster[(3 : Station)] = decide (k = 1) ∧
      (∀ m : Station, m ≠ 3 → s.au.replica.roster[m] = true → m = targetField f.payload)) := by
  simp only [State.receives, State.hears, State.inStep]
  decide +kernel

/-- A MEMBER that holds lock 12, and a DEPARTING one. -/
theorem witness_EvictOusts :
    ∀ b : Bool, let f := frameOf .evict 0 [7]
      let s0 := withRecord held12 (hearer (lock40 (some 7) 6 [20]))
      let s := { s0 with sc := { s0.sc with state := if b then .member else .departing } }
      s.receives (readingOf f) f ∧ f.kind = .evict ∧ s.inStep f ∧ s.tableLawful = true ∧ targetField f.payload = s.station ∧
      s.au.replica.roster[s.station] = true ∧ present s.sc.state = true := by
  simp only [State.receives, State.hears, State.inStep]
  decide +kernel

/-- The DEPART of another member, at a station that waits for the lock it holds and at one that collects from it; the own one in DEPARTING;
and that of a stale membership, applied, as an outsider, and with the roster emptied by it. -/
theorem witness_DepartFrameApplied :
    (let f := frameOf .depart 3 []
     let s := withRecord (record12 .waiting) (hearer (lock40 (some 20) 6 [7]))
     (f.kind = .depart ∧ f.busSeq = s.au.replica.busSeq ∧ s.receives (readingOf f) f ∧ s.au.replica.roster[f.sender] = true ∧
       f.sender ≠ s.station ∧ present s.sc.state = true ∧ s.sc.state = .member ∧ s.handed f.sender 12 = true) ∧
     ∀ l r, s.handed f.sender l = true → recordFor s l = some r → s.awaits r) ∧
    (let f : Frame := { frameOf .depart 3 [] with sender := 3 }
     let s := collector 15
     f.busSeq = s.au.replica.busSeq ∧ s.receives (readingOf f) f ∧ s.au.replica.roster[f.sender] = true ∧ s.rt = .empty ∧
     s.au.replica.transfer.running = true ∧ s.au.replica.transfer.feeder = f.sender) ∧
    (let f := ownFrame .depart 3 []
     let s0 := sender .departing (lock40 (some 3) 6 []) .depart f
     let s := { s0 with pm := { s0.pm with attained := false } }
     f.busSeq = s.au.replica.busSeq ∧ s.sends (readingOf f) f ∧ s.sc.state = .departing ∧ s.au.replica.roster[f.sender] = true ∧
     f.sender = s.station ∧ s.tableLawful = true ∧ s.stateLawful = true) ∧
    (∀ k : Fin 3, let f := ownFrame .depart 3 []
      let s0 := sending f (withQueue [contending .depart] (station 3 .enrolling .idle))
      let s1 := { s0 with sc := { s0.sc with staleMark := true } }
      let s := s1.withReplica { Replica.cleared with busSeq := 800, roster := setOfList ([[3, 20], [20], [3]][k]) }
      f.busSeq = s.au.replica.busSeq ∧ s.sends (readingOf f) f ∧ s.sc.state = .enrolling ∧ s.sc.staleMark = true ∧ s.rt = .empty ∧
      s.au.replica.roster[f.sender] = decide (k ≠ 1) ∧
      (if k = 2 then ∀ m : Station, s.au.replica.roster[m] = true → m = f.sender
       else ∃ m : Station, m ≠ f.sender ∧ s.au.replica.roster[m] = true)) := by
  simp only [State.receives, State.hears, State.sends]
  exact ⟨⟨by decide +kernel, awaits_all (by decide +kernel)⟩, by decide +kernel⟩

/-- At a receiver, and own, fenced by CONTACT or not. -/
theorem witness_BeaconFrameApplied :
    (let f := frameOf .beacon 7 [1, 2]
     let s := hearer (lock40 none 5 [])
     f.kind = .beacon ∧ s.inStep f ∧ voting s.sc.state = true ∧ s.receives (readingOf f) f ∧ present s.sc.state = true) ∧
    (∀ b : Bool, let f := ownFrame .beacon 7 [1, 2]
      let s0 := sender .member (lock40 none 5 []) .beacon f
      let s := { s0 with pm := { s0.pm with contact := b } }
      f.kind = .beacon ∧ s.inStep f ∧ voting s.sc.state = true ∧ s.sends (readingOf f) f ∧
      (s.sc.state = .collecting → s.tc.collected ≤ 15) ∧ present s.sc.state = true ∧ s.sc.state = .member) := by
  simp only [State.receives, State.hears, State.inStep, State.sends]
  decide +kernel

/-- A SYNC_ASK of station 12. -/
def ask12 (p : List Byte) : Frame := { cls := 6, sender := 12, kind := .syncAsk, flags := 0, busSeq := 0, payload := p }

/-- The pending list with 3 and with 4 stations; a different profile; a round started by this station as its feeder. -/
theorem witness_SyncAskFrameApplied :
    (∀ k : Fin 4, let f := ask12 ([[1, 2], [1, 2], [1, 3], [1, 2]][k])
      let x := [[], [1, 2, 4], [], [1, 2, 4, 5]][k]
      let s0 := member 3 (lock40 none 5 []) .receiving
      let s := s0.withReplica { s0.au.replica with transfer := { TransferRecord.cleared with running := decide (k = 1), pendingList := x } }
      s.receives (readingOf f) f ∧ f.kind = .syncAsk ∧ sameProfile s f.payload = decide (k ≠ 2) ∧
      f.sender ∉ s.au.replica.transfer.pendingList ∧ s.au.replica.transfer.pendingList = x ∧
      s.au.replica.transfer.running = decide (k = 1) ∧ s.au.replica.roster[(3 : Station)] = true ∧
      (∀ m : Station, m < 3 → s.au.replica.roster[m] = false) ∧ (3 : Station) = s.station ∧ present s.sc.state = true) ∧
    (let f : Frame := { ask12 [1, 2] with sender := 3 }
     let s := sending f (withQueue [contending .syncAsk] (station 3 .asking .idle))
     s.sends (readingOf f) f ∧ f.kind = .syncAsk ∧ s.sc.state = .asking) := by
  simp only [State.receives, State.hears, State.sends]
  decide +kernel

/-- A member that follows round 5 of feeder 20, at a next page, with stations waiting for the next round. -/
def rounds (n : Nat) (p : List Station) : State :=
  let s := hearer (lock40 none 5 [])
  s.withReplica { s.au.replica with
    transfer := { running := true, feeder := 20, round := 5, nextPage := n, roundList := [6], pendingList := p } }

set_option maxRecDepth 1024 in
/-- A page that does not qualify; pages 15 and 16 that do, with none and one pending. -/
theorem witness_PageFrameApplied :
    ∀ k : Fin 4, let n := [15, 15, 16, 16][k]
      let s := rounds n ([[], [], [], [8]][k])
      let f := frameOf .page 4 (lockPage ([4, 5, 5, 5][k]) (BitVec.ofNat 8 n) .cleared)
      s.receives (readingOf f) f ∧ f.kind = .page ∧ s.inStep f ∧ s.sc.state ≠ .collecting ∧ (s.qualifies f ↔ k ≠ 0) ∧
      (s.au.replica.transfer.pendingList = [] ↔ k ≠ 3) ∧
      s.au.replica.roster[(3 : Station)] = true ∧ (∀ m : Station, m < 3 → s.au.replica.roster[m] = false) := by
  simp only [State.receives, State.hears, State.inStep, State.qualifies]
  decide +kernel

set_option maxRecDepth 1024 in
/-- At a COLLECTING station, pages that do not qualify: of another round, of another number, and of another sender. -/
theorem witness_PageFrameApplied_collecting :
    ∀ k : Fin 3, let s := collector 3
      let f : Frame := { frameOf .page 4 (lockPage ([4, 5, 5][k]) ([4, 5, 4][k]) .cleared) with sender := [3, 3, 20][k] }
      s.receives (readingOf f) f ∧ f.kind = .page ∧ s.inStep f ∧ s.sc.state = .collecting ∧ ¬ s.qualifies f := by
  simp only [State.receives, State.hears, State.inStep, State.qualifies]
  decide +kernel

/-- The feeder's own PAGE, in MEMBER and in DEPARTING: page 15 and page 16, with none and one pending. -/
theorem witness_PageFrameApplied_own :
    ∀ (k : Fin 3) (b : Bool), let n := [15, 16, 16][k]
      let f := ownFrame .page 4 (lockPage 5 (BitVec.ofNat 8 n) .cleared)
      let s0 := sender (if b then .member else .departing) (lock40 none 5 []) .page f
      let s := s0.withReplica { s0.au.replica with
        transfer := { running := true, feeder := 3, round := 5, nextPage := n, roundList := [6], pendingList := [[], [], [8]][k] } }
      s.sendsInStep (readingOf f) f ∧ f.kind = .page ∧
      (∀ e ∈ s.oq.entries, ownerOf e.content = .page → e.contending = true) ∧ s.au.replica.transfer.running = true ∧
      s.au.replica.transfer.feeder = f.sender ∧ s.au.replica.transfer.round = byteAt f.payload 0 ∧
      s.au.replica.transfer.nextPage = (byteAt f.payload 1).toNat := by
  simp only [State.sendsInStep, State.sends, State.inStep]
  decide +kernel

set_option maxRecDepth 1024 in
/-- The first page, the last page, and a page whose images name a station that is no member. -/
theorem witness_PageFrameCollected :
    ∀ k : Fin 3, let n := [0, 15, 0][k]
      let s := collector n
      let f : Frame := { frameOf .page 4 (lockPage 5 (BitVec.ofNat 8 (n + 1)) (lock40 (some ([3, 20, 31][k])) 6 [7])) with sender := 3 }
      s.receives (readingOf f) f ∧ f.kind = .page ∧ s.inStep f ∧ s.sc.state = .collecting ∧ s.qualifies f ∧
      1 ≤ s.au.replica.transfer.nextPage ∧ s.tc.collected = n ∧
      (∀ j : Fin 4, imagePasses s.au.replica.roster (imageAt f.payload j.val) = decide (k ≠ 2)) := by
  simp only [State.receives, State.hears, State.inStep, State.qualifies]
  decide +kernel

/-- A profile that binds REQ1 to lock 20 and REQ3 to lock 50. -/
def pinProfile : ConfigRecord := { profile with requests := putAt profile.requests 3 (some 50) }

/-- The station with that profile and both pins asserted. -/
def asserted (s : State) : State :=
  let i : RequestInput := { raw := true, stable := true, debounce := none, ignored := false }
  { s with sc := { s.sc with config := some pinProfile }, ri := { inputs := putAt (putAt s.ri.inputs 1 i) 3 i } }

/-- An ENROL of a member, of a non-member, of a non-member with another profile; the own one, with two pins asserted, and the own one of a
station that the roster still names. -/
theorem witness_EnrolFrameApplied :
    (∀ k : Fin 3, let f : Frame := { frameOf .enrol 6 ([[1, 2], [1, 2], [1, 3]][k]) with sender := [20, 31, 31][k] }
      let s := hearer (lock40 none 5 [])
      f.kind = .enrol ∧ f.busSeq = s.au.replica.busSeq ∧ s.receives (readingOf f) f ∧
      s.au.replica.roster[f.sender] = decide (k = 0) ∧ sameProfile s f.payload = decide (k ≠ 2) ∧ present s.sc.state = true ∧
      f.sender ≠ s.station ∧ s.sc.state = .member) ∧
    (∀ b : Bool, let f := ownFrame .enrol 6 [1, 2]
      let s0 := asserted (sender .enrolling (lock40 none 5 []) .enrol f)
      let s := s0.withReplica { s0.au.replica with roster := putAt s0.au.replica.roster 3 b }
      f.kind = .enrol ∧ f.busSeq = s.au.replica.busSeq ∧ s.sends (readingOf f) f ∧ f.sender = s.station ∧ s.sc.state = .enrolling ∧
      s.au.replica.roster[s.station] = b ∧ sameProfile s f.payload = true ∧ s.rt = .empty ∧ s.pinsDistinct ∧
      s.pinAsks 1 = true ∧ s.pinBefore 1 = false ∧ s.pinAsks 3 = true ∧ s.pinBefore 3 = true) := by
  simp only [State.receives, State.hears, State.sends, State.pinsDistinct]
  decide +kernel

/-- An ENROL brings the roster back to Q: the stranding timer stops (R67), and UNFENCED follows PEER_JOINED (R62, R71). -/
theorem test_quorum_returns :
    let f : Frame := { frameOf .enrol 6 [1, 3] with sender := 31 }
    let s0 := atQuorum (hearer (lock40 none 5 []))
    let s := { s0 with pm := { s0.pm with quorum := true, stranding := some 30 },
                       au := { s0.au with replica := { s0.au.replica with roster := setOfList [7, 20] } } }
    let t := after (.enrolFrame (readingOf f)) s
    t.hp.notices.map (·.kind) = [.peerJoined, .unfenced] ∧ t.pm.stranding = none ∧ t.pm.quorum = false := by
  decide +kernel

/-- A FOUND of station 20. -/
def found20 (p : List Byte) : Frame := { cls := 6, sender := 20, kind := .found, flags := 0, busSeq := 0, payload := p }

theorem witness_FoundFrameApplied :
    ((hearer (lock40 none 5 [])).receives (readingOf (found20 [1, 2])) (found20 [1, 2]) ∧ (found20 [1, 2]).kind = .found) ∧
    (let f : Frame := { found20 [1, 2] with sender := 3 }
     let s := asserted (sending f (withQueue [contending .found] (station 3 .founding .idle)))
     s.sends (readingOf f) f ∧ f.kind = .found ∧ s.sc.state = .founding ∧ s.rt = .empty ∧ s.pinsDistinct ∧
     s.pinAsks 1 = true ∧ s.pinBefore 1 = false) := by
  simp only [State.receives, State.hears, State.sends, State.pinsDistinct]
  decide +kernel

/-- A receiver with a streak. -/
def streaked (n : Nat) (l : List Station) : State :=
  let s := hearer (lock40 none 5 [])
  { s with au := { s.au with streakCount := n, streakSenders := setOfList l } }

/-- Outsiders by membership; by sequence with the streak at 1 of one other, at 2 of the same sender, and at 2 of another sender. -/
theorem witness_OutsiderFramesSetAside :
    (let f : Frame := { frameOf .beacon 7 [1, 2] with sender := 31 }
     let s := hearer (lock40 none 5 [])
     s.receives (readingOf f) f ∧ f.kind ≠ .found ∧ f.kind ≠ .syncAsk ∧ f.busSeq = s.au.replica.busSeq ∧ f.kind ≠ .enrol ∧
     s.au.replica.roster[f.sender] = false) ∧
    (∀ k : Fin 3, let f : Frame := { frameOf .beacon 7 [1, 2] with busSeq := 801 }
      let s := streaked ([1, 2, 2][k]) ([[3], [20], [3]][k])
      s.receives (readingOf f) f ∧ f.kind ≠ .found ∧ f.kind ≠ .syncAsk ∧ f.busSeq ≠ s.au.replica.busSeq ∧
      (s.desyncs f ↔ k = 2)) := by
  simp only [State.receives, State.hears, State.desyncs]
  decide +kernel

/-- Station 3 sends a frame on lock 12 with its record in a state. -/
def owner (e : LockEntry) (r : HoldRecord) (c : Content) (f : Frame) : State := withRecord r (sender .member e c f)

/-- The own EVICT of station 20, in MEMBER and in DEPARTING, with station 7 a millisecond short of the absence limit, and at it; fenced by
CONTACT, lock 12 handed to this station, and the same in DEPARTING; and of a station that is no member. -/
theorem witness_EvictFrameApplied_own :
    (∀ (n : Fin 2) (b : Bool), let f := ownFrame .evict 0 [20]
      let s0 := sender (if b then .member else .departing) (lock40 none 5 []) (.evict 20) f
      let s := { s0 with pm := { s0.pm with silence := putAt s0.pm.silence 7 (some ([49, 50][n])) } }
      s.sendsInStep (readingOf f) f ∧ f.kind = .evict ∧ targetField f.payload ≠ s.station ∧ 5 * beaconPeriod s = 50 ∧
      (∀ e ∈ s.oq.entries, ownerOf e.content = .evict → e.contending = true)) ∧
    (∀ b : Bool, let f := ownFrame .evict 0 [20]
     let s0 := owner (lock40 (some 20) 6 [3]) (record12 .waiting) (.evict 20) f
     let s := { s0 with pm := { s0.pm with contact := b }, sc := { s0.sc with state := if b then .member else .departing } }
     (s.sendsInStep (readingOf f) f ∧ targetField f.payload = 20 ∧ s.au.replica.roster[(20 : Station)] = true ∧
       s.gl = .stopped ∧ s.handed 20 12 = true) ∧
     ∀ l r, s.handed 20 l = true → recordFor s l = some r → s.awaits r) ∧
    (let f := ownFrame .evict 0 [31]
     let s := sender .member (lock40 none 5 []) (.evict 31) f
     s.sendsInStep (readingOf f) f ∧ targetField f.payload = 31 ∧ s.au.replica.roster[(31 : Station)] = false) := by
  simp only [State.inStep, State.sendsInStep, State.sends]
  refine ⟨by decide +kernel, fun b => ⟨by revert b; decide +kernel, awaits_all ?_⟩, by decide +kernel⟩
  revert b
  decide +kernel

/-- Granted, already held, queued behind 7, already waiting, refused behind 8, and refused in TRY mode; each for a CLAIMING and a
CLAIM_CANCEL record, unfenced and fenced by CONTACT alone. -/
theorem witness_OwnClaimTaken :
    ∀ (k : Fin 6) (x : Fin 2) (b : Bool), let e := [lock40 none 5 [], lock40 (some 3) 5 [], lock40 (some 7) 5 [0, 1, 2, 4, 5, 6, 8],
                                         lock40 (some 7) 5 [3], lock40 (some 7) 5 [0, 1, 2, 4, 5, 6, 8, 9], lock40 (some 7) 5 []][k]
      let m : Mode := if k = 5 then .tryOnly else .wait
      let r := record12 ([RecordState.claiming, .claimCancel][x])
      let f := ownFrame .claim 5 [12, modeByte m]
      let s0 := owner e r (.claim 12 m) f
      let s := { s0 with pm := { s0.pm with contact := b } }
      s.sendsInStep (readingOf f) f ∧ f.kind = .claim ∧ lockField f.payload = 12 ∧ s.tc.uncollected[(12 : Lock)] = false ∧
      recordFor s 12 = some r ∧ r.origin = .host ∧ s.bound r ∧ s.pinFell r = false ∧ s.au.replica.table[(12 : Lock)] = e ∧
      modeField f.payload = m := by
  simp only [State.sendsInStep, State.sends, State.inStep, State.bound]
  decide +kernel

/-- The same in DEPARTING, for a record of host origin. -/
theorem witness_OwnClaimTaken_departing :
    ∀ (k : Fin 6) (x : Fin 2), let e := [lock40 none 5 [], lock40 (some 3) 5 [], lock40 (some 7) 5 [0, 1, 2, 4, 5, 6, 8],
                                         lock40 (some 7) 5 [3], lock40 (some 7) 5 [0, 1, 2, 4, 5, 6, 8, 9], lock40 (some 7) 5 []][k]
      let m : Mode := if k = 5 then .tryOnly else .wait
      let r := record12 ([RecordState.claiming, .claimCancel][x])
      let f := ownFrame .claim 5 [12, modeByte m]
      let s0 := owner e r (.claim 12 m) f
      let s := { s0 with sc := { s0.sc with state := .departing } }
      s.sendsInStep (readingOf f) f ∧ f.kind = .claim ∧ lockField f.payload = 12 ∧ s.tc.uncollected[(12 : Lock)] = false ∧
      recordFor s 12 = some r ∧ s.bound r ∧ s.pinFell r = false ∧ s.au.replica.table[(12 : Lock)] = e ∧ modeField f.payload = m := by
  simp only [State.sendsInStep, State.sends, State.inStep, State.bound]
  decide +kernel

/-- R113, R121, R123: in DEPARTING a grant starts no timer and no guard, and a CLAIM_CANCEL record that is queued places no WITHDRAW. -/
theorem test_own_claim_departing :
    let run (e : LockEntry) (x : RecordState) :=
      let s0 := owner e (record12 x) (.claim 12 .wait) (ownFrame .claim 5 [12, 0])
      after (.claimFrame (readingOf (ownFrame .claim 5 [12, 0]))) { s0 with sc := { s0.sc with state := .departing } }
    let t := run (lock40 none 5 []) .claiming
    let u := run (lock40 (some 7) 5 []) .claimCancel
    (t.rt.slots[(1 : Tier)]).map (fun r => (r.state, r.holdTimer)) = some (.held, none) ∧ t.gl = .stopped ∧
    (u.rt.slots[(1 : Tier)]).map (·.state) = some .withdrawing ∧ u.oq.entries = [] := by
  decide +kernel

/-- In MEMBER and in DEPARTING, a YIELD from the holder, for either reason, and one that is stale. -/
theorem witness_OwnReleaseTaken :
    ∀ (k : Fin 3) (b : Bool), let e := [lock40 (some 3) 6 [9], lock40 (some 3) 6 [], lock40 (some 3) 7 []][k]
      let why := [Reason.released, .expired, .released][k]
      let r := { record12 .yielding with generation := some 6 }
      let f := { ownFrame .yield 2 [12, 0, 6] with flags := reasonFlags why }
      let s0 := owner e r (.yield 12 6 why) f
      let s := { s0 with sc := { s0.sc with state := if b then .member else .departing } }
      s.sendsInStep (readingOf f) f ∧ lockField f.payload = 12 ∧ s.tc.uncollected[(12 : Lock)] = false ∧ recordFor s 12 = some r ∧
      r.origin = .host ∧ f.kind = .yield ∧ r.state = .yielding ∧ reasonField f.flags = why ∧
      s.au.replica.table[(12 : Lock)] = e ∧ e.waiters.head? ≠ some s.station ∧ generationField f.payload = 6 := by
  simp only [State.sendsInStep, State.sends, State.inStep]
  decide +kernel

/-- A record whose WITHDRAW is on the bus: WITHDRAWING, HELD by a grant meanwhile, and YIELDING after that. -/
def withdrawn12 (k : Fin 3) : HoldRecord :=
  [record12 .withdrawing, { held12 with withdrawAsked := true },
   { record12 .yielding with generation := some 6, withdrawAsked := true, deferred := some .released }][k]

/-- The owner of that record as its WITHDRAW, that frame, ends, in MEMBER or in DEPARTING. -/
def withdrawOwner (k : Fin 3) (x : StationState) : State :=
  let e := [lock40 (some 7) 6 [3], lock40 (some 3) 6 [], lock40 (some 3) 6 []][k]
  let s := owner e (withdrawn12 k) (.withdraw 12) (ownFrame .withdraw 3 [12])
  { s with sc := { s.sc with state := x } }

/-- In MEMBER and in DEPARTING, a WITHDRAW of a WITHDRAWING record, and of a record that was granted meanwhile, HELD, or YIELDING with its
YIELD deferred: what every clause asks. -/
theorem witness_OwnReleaseTaken_withdraw :
    ∀ (k : Fin 3) (b : Bool), let f := ownFrame .withdraw 3 [12]
      let s := withdrawOwner k (if b then .member else .departing)
      s.sendsInStep (readingOf f) f ∧ lockField f.payload = 12 ∧ s.tc.uncollected[(12 : Lock)] = false ∧
      recordFor s 12 = some (withdrawn12 k) ∧ f.kind = .withdraw := by
  simp only [State.sendsInStep, State.sends, State.inStep]
  decide +kernel

/-- The same, what the clauses of each record ask: its state, its origin and marks, and the waiters. -/
theorem witness_OwnReleaseTaken_records :
    (withdrawn12 0).state = .withdrawing ∧ (withdrawn12 0).origin = .host ∧ (withdrawn12 0).deferred = none ∧
    (withdrawn12 1).state = .held ∧ (withdrawn12 1).withdrawAsked = true ∧ (withdrawn12 1).deferred = none ∧
    (withdrawn12 2).state = .yielding ∧ (withdrawn12 2).withdrawAsked = true ∧ (withdrawn12 2).deferred = some .released ∧
    (∀ x, (withdrawOwner 1 x).station ∉ (withdrawOwner 1 x).au.replica.table[(12 : Lock)].waiters) ∧
    (∀ x, (withdrawOwner 2 x).station ∉ (withdrawOwner 2 x).au.replica.table[(12 : Lock)].waiters) := by
  refine ⟨rfl, rfl, rfl, rfl, rfl, rfl, rfl, rfl, rfl, fun x => ?_, fun x => ?_⟩ <;> cases x <;> decide +kernel

/-- REQ1, bound to lock 20, at levels raw and stable. -/
def pinned (raw stable ignored : Bool) (s : State) : State :=
  { s with ri := { inputs := putAt s.ri.inputs 1 { raw := raw, stable := stable, debounce := some 2, ignored := ignored } } }

/-- A record for lock 20 of pin origin. -/
def record20 (x : RecordState) : HoldRecord := { record12 x with lock := 20, origin := .req 1, generation := some 4 }

/-- The station with a record in slot 2. -/
def withPinRecord (r : HoldRecord) (s : State) : State := { s with rt := { slots := putAt s.rt.slots 2 (some r) } }

/-- Station 3 sends a frame on lock 20, with the record of REQ1 in a state and the pin's levels as given. -/
def pinOwner (e : LockEntry) (x : RecordState) (stable ignored : Bool) (c : Content) (f : Frame) : State :=
  let s := withPinRecord (record20 x) (sender .member .cleared c f)
  { s with au := { s.au with replica := { s.au.replica with table := putAt s.au.replica.table 20 e } },
           ri := { inputs := putAt s.ri.inputs 1 { raw := stable, stable := stable, debounce := none, ignored := ignored } } }

/-- A record of pin origin in DEPARTING, its pin asserted: its CLAIM refused behind 8 waiters, its YIELD, and its WITHDRAW. -/
theorem witness_own_departing_pin :
    ∀ k : Fin 3, let e := [lock40 (some 7) 5 [0, 1, 2, 4, 5, 6, 8, 9], lock40 (some 3) 4 [], lock40 (some 7) 4 [3]][k]
      let x := [RecordState.claiming, .yielding, .withdrawing][k]
      let f := [ownFrame .claim 5 [20, 0], ownFrame .yield 2 [20, 0, 4], ownFrame .withdraw 3 [20]][k]
      let s0 := pinOwner e x true false ([Content.claim 20 .wait, .yield 20 4 .released, .withdraw 20][k]) f
      let s := { s0 with sc := { s0.sc with state := .departing } }
      s.sendsInStep (readingOf f) f ∧ lockField f.payload = 20 ∧ s.tc.uncollected[(20 : Lock)] = false ∧
      recordFor s 20 = some (record20 x) ∧ s.bound (record20 x) ∧ s.au.replica.table[(20 : Lock)] = e := by
  simp only [State.sendsInStep, State.sends, State.inStep, State.bound]
  decide +kernel

/-- Station 7 receives, with a WITHDRAWING record of REQ1 for lock 20 as given, and the pin's level. -/
def pinHearer (e : LockEntry) (level : Bool) : State :=
  let s := withPinRecord (record20 .withdrawing) (hearer .cleared)
  { s with au := { s.au with replica := { s.au.replica with table := putAt s.au.replica.table 20 e } },
           ri := { inputs := putAt s.ri.inputs 1 { raw := level, stable := level, debounce := none, ignored := false } } }

/-- The yield of lock 20 by station 20, handed to a WITHDRAWING record of REQ1 under each level of the pin. -/
theorem witness_YieldFrameApplied_pin :
    ∀ b : Bool, let f := frameOf .yield 2 [20, 0, 6]
      let s := pinHearer (lock40 (some 20) 6 [7]) b
      s.receives (readingOf f) f ∧ s.inStep f ∧ s.tc.uncollected[lockField f.payload] = false ∧
      s.au.replica.table[lockField f.payload] = lock40 (some 20) 6 [7] ∧
      recordFor s (lockField f.payload) = some (record20 .withdrawing) ∧ s.awaits (record20 .withdrawing) ∧
      s.pinFell (record20 .withdrawing) = !b := by
  simp only [State.receives, State.hears, State.inStep, State.awaits, State.bound]
  decide +kernel

/-- Station 3 with an attempt under way at the last void of its entry, and its line counts before a limit: at an unconfirmed start bit, at
a transmit mismatch, and at a fourth collision. Its entry is the CLAIM of a CLAIMING, a CLAIM_CANCEL or a pin's record, or a BEACON. -/
def faulting (k : Fin 4) (b : Fin 3) : State × Entry :=
  let e := { contending ([Content.claim 12 .wait, .claim 12 .wait, .claim 20 .wait, .beacon][k]) with voids := 15 }
  let s0 := withQueue [e] member3
  let s := if k = 2 then withPinRecord (record20 .claimCancel) s0
           else withRecord (record12 ([RecordState.claiming, .claimCancel, .claiming, .waiting][k])) s0
  ({ s with lc := { s.lc with state := [LineState.idle, .sending, .sending][b], sending := some claim12, rxFaults := 7,
                              txFaults := [7, 8, 6][b], collisions := [0, 3, 3][b] } }, e)

theorem witness_LineFaultsDrop_attempt :
    (∀ k b, (faulting k b).1.recordsBound) ∧
    (∀ k b, let s := (faulting k b).1
      s.inReset = false ∧ voting s.sc.state = true ∧ present s.sc.state = true ∧ s.attempts [] (faulting k b).2 [] ∧
      (faulting k b).2.content ≠ .enrol ∧ s.lc.state = [LineState.idle, .sending, .sending][b] ∧ s.lc.sending = some claim12 ∧
      ¬ ({ s.lc with txFaults := 0 } : LineController).mute ∧
      (b ≠ 2 → 7 ≤ s.lc.txFaults) ∧ (b = 2 → s.lc.txFaults < 7 ∧ s.lc.collisions = 3)) ∧
    mistransmitIn (frameCells claim12) faded = true ∧ collisionIn (frameCells claim12) faded = false ∧
    collisionIn (frameCells claim12) collided = true := by
  simp only [State.attempts, LineController.mute]
  exact ⟨fun k b => bound_all (by revert k b; decide +kernel), by decide +kernel⟩

/-- The same for REQ1's record of lock 20, granted, with the pin asserted and, for a CLAIM_CANCEL record, deasserted. -/
theorem witness_OwnClaimTaken_pin :
    ∀ k : Fin 3, let f := ownFrame .claim 5 [20, 0]
      let x := [RecordState.claiming, .claimCancel, .claimCancel][k]
      let s := pinOwner (lock40 none 5 []) x (decide (k ≠ 2)) false (.claim 20 .wait) f
      s.sendsInStep (readingOf f) f ∧ lockField f.payload = 20 ∧ s.tc.uncollected[(20 : Lock)] = false ∧
      recordFor s 20 = some (record20 x) ∧ s.bound (record20 x) ∧ s.pinFell (record20 x) = decide (k = 2) := by
  simp only [State.sendsInStep, State.sends, State.inStep, State.bound]
  decide +kernel

/-- A CLAIM refused behind 8 waiters, of a CLAIMING and of a CLAIM_CANCEL record; one granted after the pin fell; a YIELD, and the WITHDRAW
of a WITHDRAWING record, at its end under each level of the pin. -/
theorem witness_PinRecordFollowed :
    ∀ k : Fin 9, let e := [lock40 (some 7) 5 [0, 1, 2, 4, 5, 6, 8, 9], lock40 (some 7) 5 [0, 1, 2, 4, 5, 6, 8, 9], lock40 none 5 [],
                           lock40 (some 3) 4 [9], lock40 (some 3) 4 [], lock40 (some 3) 4 [], lock40 (some 7) 4 [3],
                           lock40 (some 7) 4 [9, 3], lock40 (some 7) 4 [3]][k]
      let x := [RecordState.claiming, .claimCancel, .claimCancel, .yielding, .yielding, .yielding, .withdrawing, .withdrawing,
                .withdrawing][k]
      let f := if k.val < 3 then ownFrame .claim 5 [20, 0] else if k.val < 6 then ownFrame .yield 2 [20, 0, 4]
        else ownFrame .withdraw 3 [20]
      let s := pinOwner e x ([true, true, false, true, false, true, true, false, true][k]) (decide (k = 5 ∨ k = 8))
        (if k.val < 3 then .claim 20 .wait else if k.val < 6 then .yield 20 4 .released else .withdraw 20) f
      s.sc.state = .member ∧ requestBinding s 1 = some 20 ∧ recordFor s 20 = some (record20 x) ∧ (record20 x).origin = .req 1 ∧
      s.tc.uncollected[(20 : Lock)] = false ∧ s.sendsInStep (readingOf f) f ∧ lockField f.payload = 20 ∧
      s.au.replica.table[(20 : Lock)] = e ∧ (k.val < 6 → e.waiters.head? ≠ some s.station) ∧
      s.ri.inputs[(1 : Pin)].stable = [true, true, false, true, false, true, true, false, true][k] ∧
      s.ri.inputs[(1 : Pin)].ignored = decide (k = 5 ∨ k = 8) := by
  simp only [State.sendsInStep, State.sends, State.inStep]
  decide +kernel

/-- A WITHDRAWING record of a deasserted pin, granted by the YIELD, the EVICT and the DEPART of the holder. -/
theorem witness_PinRecordFollowed_granted :
    (∀ h : Fin 2, (pinHearer (lock40 (some ([20, 3][h])) 4 [7]) false).recordsBound) ∧
    (∀ k : Fin 3, let h : Station := [20, 3, 20][k]
      let f := [frameOf .yield 2 [20, 0, 4], frameOf .evict 0 [3], frameOf .depart 3 []][k]
      let s := pinHearer (lock40 (some h) 4 [7]) false
      s.receives (readingOf f) f ∧ s.inStep f ∧ s.sc.state = .member ∧ requestBinding s 1 = some 20 ∧
      recordFor s 20 = some (record20 .withdrawing) ∧ s.tc.uncollected[(20 : Lock)] = false ∧
      s.ri.inputs[(1 : Pin)].stable = false ∧ slotContends .withdraw (tierOf 20) s = false ∧ h ≠ s.station ∧
      s.au.replica.table[(20 : Lock)] = lock40 (some h) 4 [7] ∧ s.station = 7 ∧
      (k = 0 → f.kind = .yield ∧ f.sender = h ∧ lockField f.payload = 20 ∧ generationField f.payload = 4) ∧
      (k = 1 → f.kind = .evict ∧ targetField f.payload = h ∧ s.au.replica.roster[h] = true) ∧
      (k = 2 → f.kind = .depart ∧ f.sender = h)) := by
  simp only [State.receives, State.hears, State.inStep]
  exact ⟨fun h => bound_all (by revert h; decide +kernel), by decide +kernel⟩

/-- A CLAIM of a pin record at its sixteenth void, and one whose pin fell and rose again; no other slot is occupied, then a slot above. -/
theorem witness_PinRecordFollowed_attempt :
    ∀ (k : Fin 2) (b : Bool), let x := [RecordState.claiming, .claimCancel][k]
      let e := { contending (.claim 20 .wait) with voids := 15 }
      let s0 := withPinRecord (record20 x) (attempting .member .sending e)
      let s1 := if b then { s0 with rt := { slots := putAt s0.rt.slots 7 (some { held12 with lock := 60 }) } } else s0
      let s := { s1 with ri := { inputs := putAt s1.ri.inputs 1 { raw := true, stable := true, debounce := none, ignored := false } } }
      s.sc.state = .member ∧ requestBinding s 1 = some 20 ∧ recordFor s 20 = some (record20 x) ∧ s.attempts [] e [] ∧
      s.tc.uncollected[(20 : Lock)] = false ∧ 15 ≤ e.voids ∧ (∀ y ∈ ([] ++ [] : List Entry), ownerOf y.content ≠ ownerOf e.content) ∧
      s.lc = (attempting .member .sending e).lc := by
  simp only [State.attempts]
  decide

/-- Station 7 receives what station 3 sends, and both go on. -/
theorem witness_ReplicasAgree :
    let s := hearer (lock40 none 5 [])
    let t := claimant
    (s.receives (readingOf claim12) claim12 ∧ t.sends (readingOf claim12) claim12 ∧ voting t.sc.state = true ∧
      s.sc.state ≠ .collecting ∧ t.sc.state ≠ .collecting ∧ s.collectedAll ∧ t.collectedAll ∧ s.sc.config.isSome = true ∧
      t.sc.config.isSome = true ∧ beaconPeriod s = beaconPeriod t ∧ quorumOf s = quorumOf t ∧ s.au.replica = t.au.replica ∧
      voting (after (.claimFrame (readingOf claim12)) s).sc.state = true ∧
      voting (after (.claimFrame (readingOf claim12)) t).sc.state = true) ∧
    exec (frameCommand claim12.kind (readingOf claim12)) s = .next (after (.claimFrame (readingOf claim12)) s) ∧
    exec (frameCommand claim12.kind (readingOf claim12)) t = .next (after (.claimFrame (readingOf claim12)) t) := by
  refine ⟨?_, rfl, rfl⟩
  simp only [State.receives, State.hears, State.sends, State.collectedAll]
  decide +kernel

/-- Each state in which a frame is heard without a vote, with a frame of another kind and with a FOUND of either profile. -/
theorem witness_JoiningFramesHeard :
    ∀ (x : Fin 5) (k : Fin 3),
      let s := station 3 ([StationState.listen, .founding, .asking, .unconfigured, .ready][x]) .receiving
      let f := [claim12, found20 [1, 2], found20 [1, 3]][k]
      s.hears (readingOf f) f ∧ voting s.sc.state = false ∧ s.sc.state ≠ .waitRound ∧ (f.kind = .found ↔ k ≠ 0) ∧
      (k ≠ 0 → sameProfile s f.payload = decide (k = 1)) := by
  simp only [State.hears]
  decide +kernel

/-- A page 0 of round 6 from feeder 4, with members 4 and 9, round list and pending list as given. -/
def pageZero (r p : Station) : Frame := frameOf .page 4 [6, 0, 4, 2, 4, 9, 1, stationByte r, 1, stationByte p]

/-- A frame of another kind; a page 0 that names station 3 nowhere, in its pending list, and in its round list; and pages that are not
well formed: no member, a member twice, a feeder that is no member, a station twice in a list. -/
theorem witness_PageZeroHeard :
    let s := station 3 .waitRound .receiving
    (s.hears (readingOf claim12) claim12 ∧ s.sc.state = .waitRound ∧ claim12.kind ≠ .page) ∧
    (∀ k : Fin 3, let f := pageZero ([5, 5, 3][k]) ([8, 3, 8][k])
      let x : Byte := [5, 5, 3][k]
      let y : Byte := [8, 3, 8][k]
      s.hears (readingOf f) f ∧ f.kind = .page ∧ byteAt f.payload 1 = 0 ∧
      f.payload = [6, 0, 4, BitVec.ofNat 8 ([4, 9] : List Byte).length] ++ [4, 9] ++ [BitVec.ofNat 8 [x].length] ++ [x]
        ++ [BitVec.ofNat 8 [y].length] ++ [y] ∧
      (∀ b ∈ 4 :: [4, 9] ++ [x] ++ [y], b.toNat ≤ 31)) ∧
    (∀ k : Fin 4, let f := frameOf .page 4 ([[6, 0, 4, 0, 0, 0], [6, 0, 4, 2, 4, 4, 0, 0], [6, 0, 4, 1, 9, 0, 0],
                                             [6, 0, 4, 1, 4, 2, 3, 3, 0]][k])
      s.hears (readingOf f) f ∧ f.kind = .page ∧ byteAt f.payload 1 = 0 ∧ readPageZero f.payload = none) := by
  simp only [State.hears]
  decide +kernel

/-- At P with no BEACON queued; with one between others; and the absence limit with and without an EVICT queued. -/
theorem witness_PresenceTimers :
    (present member3.sc.state = true ∧ (∀ e ∈ member3.oq.entries, e.content ≠ .beacon) ∧ member3.pm.silence[(7 : Station)] = some 0 ∧
      (∀ e ∈ member3.oq.entries, ∀ x, e.content ≠ .evict x)) ∧
    (let s := withQueue [newEntry .page, newEntry .beacon, newEntry (.evict 20)] { member3 with
        pm := { member3.pm with beaconAge := some 10 } }
     present s.sc.state = true ∧ (∃ e ∈ s.oq.entries, e.content = .beacon) ∧
     s.oq.entries = [newEntry .page] ++ newEntry .beacon :: [newEntry (.evict 20)] ∧ (newEntry .beacon).content = .beacon ∧
     (∀ x ∈ [newEntry .page] ++ [newEntry (.evict 20)], x.content ≠ .beacon) ∧ s.pm.beaconAge = some 10 ∧
     (∃ e ∈ s.oq.entries, ∃ x, e.content = .evict x)) := by
  decide

theorem witness_FenceAndStranding :
    (member3.sc.state = .member ∧ member3.pm.contact = false) ∧
    (let s := withRecord held12 { member3 with pm := { member3.pm with quorum := true, stranding := some 100 } }
     s.sc.state = .member ∧ s.pm.contact = false ∧ s.pm.stranding.isSome = true) := by
  decide

/-- The JOINING place free; and the first, the third and the fourth round timeout. -/
theorem witness_JoinTimers :
    ((station 3 .listen .idle).sc.state = .listen ∧ (∀ e ∈ (station 3 .listen .idle).oq.entries, ownerOf e.content ≠ .joining)) ∧
    (collector 0).sc.state = .collecting ∧
    (∀ n : Fin 3, let k := [0, 2, 3][n]
      let s := { station 3 .waitRound .idle with sc := { (station 3 .waitRound .idle).sc with askCount := k } }
      s.sc.state = .waitRound ∧ s.sc.askCount = k ∧ (k < 3 ↔ n ≠ 2)) := by
  decide

theorem witness_HoldExpires :
    ∀ m : Bool, let r := { timed held12 200 with withdrawAsked := m }
      let s := withRecord r member3
      s.sc.state = .member ∧ s.rt.slots[(1 : Tier)] = some r ∧ tierOf r.lock = 1 ∧ r.state = .held ∧ r.holdTimer.isSome = true ∧
      r.withdrawAsked = m ∧ grantBinding s 0 = some r.lock := by
  decide

theorem witness_GuardElapses :
    (({ member3 with gl := { guards := putAt member3.gl.guards 7 (.running 15) } } : State).gl.guards[(7 : GrantLine)])
      = .running 15 := by decide

/-- A station that heard both lost and clean frames with station 20's records: the REVOKED notices in slot order, then the cause
(R94, R124). -/
theorem test_revoked_in_slot_order :
    let s0 := withPinRecord (record20 .waiting) (withRecord held12 (hearer (lock40 (some 7) 6 [])))
    let s := { s0 with lc := { s0.lc with rxFaults := 7, faultUnknown := true } }
    (after (.frameLost [cellOf 0xA3, cellOf 0x10, cellOf 51]) s).hp.notices.map (fun x => (x.kind, x.lock, x.generation))
      = [(.revoked, some 12, some 6), (.revoked, some 20, none), (.lineMute, none, none)] := by
  decide

/-- The own EVICT of a MEMBER fenced by CONTACT takes the roster below Q: the frame's contact empties the fence set (R53), then the smaller
roster fences again (R61), each change with its notice at step 5 (R62,
R71). -/
theorem test_fence_step_by_step :
    let f := ownFrame .evict 0 [20]
    let s0 := sender .member (lock40 none 5 []) (.evict 20) f
    let s := { s0 with pm := { s0.pm with contact := true }, au := { s0.au with replica := { s0.au.replica with roster := setOfList [3, 20] } } }
    (after (.evictFrame (readingOf f)) s).hp.notices.map (fun x => (x.kind, x.qualifier))
      = [(.peerLeft, .left .evicted), (.unfenced, .fence .contact), (.fenced, .fence .quorum)] := by
  decide +kernel

/-- Two lines bound to one lock become active together (R128). -/
theorem test_lines_of_one_lock :
    let s0 := withRecord held12 (member 3 (lock40 (some 3) 6 []) .idle)
    let s := { s0 with sc := { s0.sc with config := some { profile with grants := putAt profile.grants 5 (some 12) } },
                       gl := { guards := putAt (putAt s0.gl.guards 0 (.running 3)) 5 (.running 3) } }
    let t := after (.guardElapsed 0) s
    grantActive s 0 = false ∧ grantActive s 5 = false ∧ grantActive t 0 = true ∧ grantActive t 5 = true := by
  decide

/-- A notice into a full queue: OVERFLOW and the late-overflow mark, and the queue as it was (R198). -/
theorem test_notice_overflow :
    let s := noted 16 (withRecord (timed held12 200) (member 3 (lock40 (some 3) 6 []) .idle))
    let t := after (.holdExpiry 1) s
    t.hp.notices = s.hp.notices ∧ t.hp.overflow = true ∧ t.hp.lateOverflow = true := by
  decide

/-- The CRC register after a lost frame holds the CRC of its three cells (R170). -/
theorem test_crc_of_lost_frame :
    (after (.frameLost [cellOf 0xA3, cellOf 0x10, cellOf 51]) (member 7 (lock40 none 5 []) .receiving)).lc.crc
      = crcOf [0xA3, 0x10, 51] := by
  decide +kernel

/-- An asserted pin with no record, above and below the occupied slots; ignored, or with its record already there; a deasserted one with
none, and with a record in each state, a HELD one with and without the mark, a CLAIMING one with its CLAIM CONTENDING and QUEUED. -/
theorem witness_PinLevelsFollowed :
    (member3.ri.inputs[(1 : Pin)].raw = false ∧ member3.ri.inputs[(1 : Pin)].raw ≠ true) ∧
    ((pinned true false false member3).ri.inputs[(1 : Pin)].debounce.isSome = true ∧ (pinned true false false State.reset).sc.state ≠ .member) ∧
    (let s := pinned true false false (withRecord held12 member3)
     s.sc.state = .member ∧ requestBinding s 1 = some 20 ∧ recordFor s 20 = none ∧
     (∀ (u : Tier) (r : HoldRecord), s.rt.slots[u] = some r → u < tierOf 20 ∧ isPending r = false)) ∧
    (let s := pinned true false false (withPinRecord { record20 .held with lock := 16, origin := .host } member3)
     s.ri.inputs[(1 : Pin)].debounce.isSome = true ∧ s.sc.state = .member ∧ requestBinding s 1 = some 20 ∧ recordFor s 20 = none ∧
     (∃ (u : Tier) (r : HoldRecord), s.rt.slots[u] = some r ∧ (tierOf 20 ≤ u ∨ isPending r = true))) ∧
    (let s := pinned true false true member3
     s.ri.inputs[(1 : Pin)].raw = true ∧ s.ri.inputs[(1 : Pin)].ignored = true ∧ requestBinding s 1 = some 20) ∧
    (let s := pinned false true false member3
     s.ri.inputs[(1 : Pin)].raw = false ∧ recordFor s 20 = none ∧ s.sc.state = .member) ∧
    (∀ (x : Fin 6) (b : Bool), let r := { record20 ([RecordState.held, .waiting, .claiming, .claimCancel, .withdrawing, .yielding][x]) with
                                          withdrawAsked := b }
      let s := pinned false true false (withQueue (if b then [contending (.claim 20 .wait)] else [newEntry (.claim 20 .wait)])
        (withPinRecord r member3))
      s.ri.inputs[(1 : Pin)].raw = false ∧ s.ri.inputs[(1 : Pin)].debounce.isSome = true ∧ s.sc.state = .member ∧
      requestBinding s 1 = some 20 ∧ recordFor s 20 = some r ∧ r.withdrawAsked = b ∧ slotContends .claim (tierOf 20) s = b) := by
  refine ⟨by decide, by decide, ⟨by decide, by decide, by decide, ?_⟩, ⟨by decide, by decide, by decide, by decide, ?_⟩,
    by decide, by decide, by decide⟩
  · intro u r h
    by_cases hu : u = 1
    · subst hu
      have e : (pinned true false false (withRecord held12 member3)).rt.slots[(1 : Tier)] = some held12 := by decide
      rw [e] at h
      cases h
      decide
    · have e : ∀ u : Tier, u ≠ 1 → (pinned true false false (withRecord held12 member3)).rt.slots[u] = none := by decide
      rw [e u hu] at h
      cases h
  · exact ⟨2, { record20 .held with lock := 16, origin := .host }, by decide, Or.inl (by decide)⟩

/-- A member with a HELD record of REQ1, at its fence limit. -/
theorem witness_HoldsLawKept :
    let s := { withPinRecord (record20 .held) member3 with pending := [.fenceLimit] }
    s.holdsLawful = true ∧ s.stateLawful = true ∧ s.recordsBound ∧ step s = .next (after .fenceLimit { s with pending := [] }) :=
  ⟨by decide +kernel, by decide +kernel, bound_all (by decide), rfl⟩

/-- Every law holds in states of these tests: a member with nothing and with a HELD record, a waiter, a sender, a collector. -/
theorem witness_laws_kept :
    member3.safe = true ∧ (withRecord (record12 .waiting) (hearer (lock40 (some 20) 6 [7, 3]))).safe = true ∧ claimant.safe = true ∧
    (collector 15).safe = true ∧ (withRecord held12 (member 3 (lock40 (some 3) 6 []) .idle)).safe = true := by
  decide +kernel

theorem witness_HoldsAgreeKept :
    ({ member3 with pending := [.fenceLimit] } : State).numberAlone ∧
    ({ member3 with pending := [.fenceLimit] } : State).safe = true ∧
    step { member3 with pending := [.fenceLimit] } = .next (after .fenceLimit member3) := by
  refine ⟨?_, by decide +kernel, rfl⟩
  intro c rest rd f h hk
  cases h
  obtain ⟨k, hk⟩ := hk
  cases k <;> cases hk


end Sys2Proof.Tests
end

section
/-! PROOFS. The laws of a lock entry (R2, R3, R4) and of the table against its roster and marks, under every operation of the Apply Unit. -/

namespace Sys2Proof.Machine

/-! ### One lock entry -/

theorem LockEntry.lawful_iff (roster : StationSet) (e : LockEntry) :
    e.lawful roster = true ↔
      (∀ h, e.holder = some h → roster[h] = true ∧ h ∉ e.waiters) ∧ (e.holder = none → e.waiters = []) ∧
      e.waiters.length ≤ 8 ∧ e.waiters.Nodup ∧ ∀ t ∈ e.waiters, roster[t] = true := by
  unfold LockEntry.lawful
  cases e.holder <;> simp [and_assoc]

theorem LockEntry.lawful_cleared (roster : StationSet) : LockEntry.cleared.lawful roster = true := by
  simp [LockEntry.lawful_iff, LockEntry.cleared]

/-- A larger roster keeps an entry lawful. -/
theorem LockEntry.lawful_mono {a b : StationSet} {e : LockEntry} (hab : ∀ t : Station, a[t] = true → b[t] = true)
    (h : e.lawful a = true) : e.lawful b = true := by
  rw [LockEntry.lawful_iff] at h ⊢
  obtain ⟨hholder, hfree, hlen, hnodup, hwaiters⟩ := h
  exact ⟨fun t ht => ⟨hab t (hholder t ht).1, (hholder t ht).2⟩, hfree, hlen, hnodup, fun t ht => hab t (hwaiters t ht)⟩

theorem claimEntry_lawful {roster : StationSet} {t : Station} {e : LockEntry} (m : Mode) (l : Lock)
    (ht : roster[t] = true) (h : e.lawful roster = true) : (claimEntry t m l e).1.lawful roster = true := by
  have hlaw := h
  rw [LockEntry.lawful_iff] at h
  obtain ⟨hholder, hfree, hlen, hnodup, hwaiters⟩ := h
  unfold claimEntry
  split
  next hnone => simpa [LockEntry.lawful_iff, hfree hnone] using ht
  next k hk =>
    (repeat' split) <;> try exact hlaw
    next hkt hmem _ hroom =>
      rw [LockEntry.lawful_iff]
      refine ⟨?_, by simp [hk], by simp; omega, ?_, ?_⟩
      · intro x hx
        obtain ⟨hx1, hx2⟩ := hholder x hx
        have hxk : x = k := Option.some.inj (hx.symm.trans hk)
        exact ⟨hx1, by simp [hx2]; rintro rfl; exact hkt hxk.symm⟩
      · rw [List.nodup_append]
        exact ⟨hnodup, List.nodup_singleton t, by simpa using fun x hx => ne_of_mem_of_not_mem hx hmem⟩
      · intro x hx
        rcases List.mem_append.mp hx with hx | hx
        · exact hwaiters x hx
        · rw [List.mem_singleton.mp hx]; exact ht

/-- A released entry is lawful against any roster that still holds the waiters. -/
theorem releaseEntry_lawful {a b : StationSet} {e : LockEntry} (l : Lock) (h : e.lawful a = true)
    (hb : ∀ t ∈ e.waiters, b[t] = true) : (releaseEntry l e).1.lawful b = true := by
  rw [LockEntry.lawful_iff] at h
  obtain ⟨_, _, hlen, hnodup, _⟩ := h
  unfold releaseEntry
  cases hw : e.waiters with
  | nil => simp [LockEntry.lawful_iff, hw]
  | cons w rest =>
    rw [hw] at hlen hnodup hb
    obtain ⟨hnot, hrest⟩ := List.nodup_cons.mp hnodup
    rw [List.length_cons] at hlen
    rw [LockEntry.lawful_iff]
    refine ⟨?_, by simp, by simp; omega, hrest, fun t ht => hb t (List.mem_cons_of_mem _ ht)⟩
    rintro x ⟨⟩
    exact ⟨hb w List.mem_cons_self, hnot⟩

theorem yieldEntry_lawful {roster : StationSet} {e : LockEntry} (t : Station) (g : Generation) (why : Reason) (l : Lock)
    (h : e.lawful roster = true) : (yieldEntry t g why l e).1.lawful roster = true := by
  unfold yieldEntry
  split
  · exact releaseEntry_lawful l h ((LockEntry.lawful_iff roster e).mp h).2.2.2.2
  · exact h

/-- An entry that a station no longer waits at is lawful against any roster that still holds its stations. -/
theorem erase_lawful {a b : StationSet} {e : LockEntry} {t : Station} (h : e.lawful a = true) (hfree : e.holder ≠ none)
    (hb : ∀ k : Station, (e.holder = some k ∨ k ∈ e.waiters.erase t) → a[k] = true → b[k] = true) :
    ({ e with waiters := e.waiters.erase t } : LockEntry).lawful b = true := by
  rw [LockEntry.lawful_iff] at h ⊢
  obtain ⟨hholder, _, hlen, hnodup, hwaiters⟩ := h
  refine ⟨fun x hx => ⟨hb x (.inl hx) (hholder x hx).1, ?_⟩, fun hnone => absurd hnone hfree, ?_, hnodup.erase t, ?_⟩
  · exact fun hmem => (hholder x hx).2 (List.mem_of_mem_erase hmem)
  · exact le_trans (List.length_erase_le) hlen
  · exact fun x hx => hb x (.inr hx) (hwaiters x (List.mem_of_mem_erase hx))

/-- A lock at which a station waits is held. -/
theorem LockEntry.held_of_waits {roster : StationSet} {e : LockEntry} {t : Station} (h : e.lawful roster = true)
    (ht : t ∈ e.waiters) : e.holder ≠ none := by
  intro hnone
  rw [LockEntry.lawful_iff] at h
  rw [h.2.1 hnone] at ht
  exact List.not_mem_nil ht

theorem withdrawEntry_lawful {roster : StationSet} {e : LockEntry} (t : Station) (l : Lock) (h : e.lawful roster = true) :
    (withdrawEntry t l e).1.lawful roster = true := by
  unfold withdrawEntry
  split
  next ht => exact erase_lawful h (LockEntry.held_of_waits h ht) (fun _ _ hk => hk)
  next => exact h

theorem removeFromEntry_lawful {roster : StationSet} {e : LockEntry} (t : Station) (l : Lock) (h : e.lawful roster = true) :
    (removeFromEntry t l e).1.lawful (dropStation roster t) = true := by
  have hlaw := h
  rw [LockEntry.lawful_iff] at h
  obtain ⟨hholder, hfree, hlen, hnodup, hwaiters⟩ := h
  have hdrop : ∀ k : Station, k ≠ t → roster[k] = true → (dropStation roster t)[k] = true := by
    intro k hk hr
    rw [dropStation_get]
    simp [hr, Ne.symm hk]
  unfold removeFromEntry
  split
  next hown =>
    refine releaseEntry_lawful l hlaw fun k hk => hdrop k ?_ (hwaiters k hk)
    rintro rfl
    exact (hholder k hown).2 hk
  next hown =>
    split
    next ht =>
      refine erase_lawful hlaw (LockEntry.held_of_waits hlaw ht) fun k hk hr => hdrop k ?_ hr
      rintro rfl
      rcases hk with hk | hk
      · exact hown hk
      · exact hnodup.not_mem_erase hk
    next ht =>
      rw [LockEntry.lawful_iff]
      refine ⟨fun x hx => ⟨hdrop x ?_ (hholder x hx).1, (hholder x hx).2⟩, hfree, hlen, hnodup,
        fun x hx => hdrop x ?_ (hwaiters x hx)⟩
      · rintro rfl; exact hown hx
      · rintro rfl; exact ht hx

/-! ### Entry images -/

theorem memberByte_iff (roster : StationSet) (b : Byte) :
    memberByte roster b = true ↔ b.toNat < 32 ∧ roster[(Fin.ofNat 32 b.toNat : Station)] = true := by
  simp [memberByte]

/-- Bytes below 32 name different stations where they differ. -/
theorem stationOf_inj {a b : Byte} (ha : a.toNat < 32) (hb : b.toNat < 32)
    (h : (Fin.ofNat 32 a.toNat : Station) = Fin.ofNat 32 b.toNat) : a = b := by
  have hval := congrArg Fin.val h
  simp only [Fin.ofNat, Nat.mod_eq_of_lt ha, Nat.mod_eq_of_lt hb] at hval
  exact BitVec.eq_of_toNat_eq hval

/-- An image that passes the check of R24 carries a lawful entry. -/
theorem entryOfImage_lawful {roster : StationSet} {im : List Byte} (h : imagePasses roster im = true) :
    (entryOfImage im).lawful roster = true := by
  simp only [imagePasses, Bool.and_eq_true, Bool.or_eq_true, beq_iff_eq, bne_iff_ne, decide_eq_true_eq, List.all_eq_true,
    memberByte_iff, List.isEmpty_iff] at h
  obtain ⟨⟨⟨⟨⟨hholder, hcount⟩, hwaiters⟩, hnodup⟩, hnot⟩, hfree⟩ := h
  rw [LockEntry.lawful_iff]
  simp only [entryOfImage]
  refine ⟨?_, ?_, ?_, ?_, ?_⟩
  · intro k hk
    split at hk
    · cases hk
    next hff =>
      obtain ⟨hlt, hmem⟩ := hholder.resolve_left hff
      cases hk
      refine ⟨hmem, fun hw => ?_⟩
      obtain ⟨b, hb, hbk⟩ := List.mem_map.mp hw
      exact hnot (stationOf_inj (hwaiters b hb).1 hlt hbk ▸ hb)
  · intro hk
    split at hk
    next hff => simp [hfree.resolve_left (fun h => h hff)]
    · cases hk
  · simp only [List.length_map, imageWaiters, List.length_take]
    omega
  · exact hnodup.map_on fun a ha b hb => stationOf_inj (hwaiters a ha).1 (hwaiters b hb).1
  · intro t ht
    obtain ⟨b, hb, rfl⟩ := List.mem_map.mp ht
    exact (hwaiters b hb).2

/-! ### The table of a replica -/

/-- The law of a replica's claim table under the uncollected marks: State.tableLawful, read at each lock. -/
def Replica.tableLaw (marks : Vector Bool 64) (r : Replica) : Prop :=
  ∀ l : Lock, r.table[l].lawful r.roster = true ∧ (marks[l] = true → r.table[l] = .cleared)

theorem State.tableLawful_iff (s : State) : s.tableLawful = true ↔ s.au.replica.tableLaw s.tc.uncollected := by
  simp only [State.tableLawful, Replica.tableLaw, List.all_eq_true, Bool.and_eq_true, Bool.or_eq_true, Bool.not_eq_true',
    beq_iff_eq, ← Bool.not_eq_true, ← imp_iff_not_or, List.mem_finRange, true_implies]

/-- A table of cleared entries is lawful under every roster and marks. -/
theorem Replica.tableLaw_cleared (marks : Vector Bool 64) {r : Replica}
    (h : r.table = Vector.replicate 64 LockEntry.cleared) : r.tableLaw marks := by
  intro l
  have hl : r.table[l] = LockEntry.cleared := by simp [h]
  simp [hl, LockEntry.lawful_cleared]

/-- A change of one lock's entry that keeps it lawful keeps the law of the table. -/
theorem applyToLock_tableLaw {marks : Vector Bool 64} {r : Replica} {l : Lock} {f : LockEntry → EntryChange}
    (h : r.tableLaw marks) (hf : (f r.table[l]).1.lawful r.roster = true) : (applyToLock marks l f r).1.tableLaw marks := by
  unfold applyToLock changeLock
  split
  · exact h
  next hm =>
    intro k
    simp only [putAt_get]
    split
    next hk => subst hk; exact ⟨hf, fun hmark => absurd hmark hm⟩
    next => exact h k

theorem removeFromTable_get (marks : Vector Bool 64) (t : Station) (table : Vector LockEntry 64) (l : Lock) :
    (removeFromTable marks t table).1[l] = if marks[l] then table[l] else (removeFromEntry t l table[l]).1 := by
  rw [removeFromTable, tabulate_get]

theorem removeMember_tableLaw {marks : Vector Bool 64} {r : Replica} (t : Station) (h : r.tableLaw marks) :
    (removeMember marks t r).1.tableLaw marks := by
  intro l
  obtain ⟨hlaw, hmarked⟩ := h l
  simp only [removeMember, removeFromTable_get]
  split
  next hm => simp [hmarked hm, LockEntry.lawful_cleared]
  next hm => exact ⟨removeFromEntry_lawful t l hlaw, fun hmark => absurd hmark hm⟩

/-- The sender of an applied frame of a kind other than SYNC_ASK and ENROL is a member (R34). -/
theorem member_of_applied {r : Replica} {f : Frame} (h : dispositionOf r f = .applied) (h1 : f.kind ≠ .syncAsk)
    (h2 : f.kind ≠ .enrol) : r.roster[f.sender] = true := by
  unfold dispositionOf at h
  split at h
  · cases h
  · exact absurd ‹_› h1
  · exact absurd ‹_› h2
  · split at h
    · split at h
      · assumption
      · cases h
    · cases h

theorem applyKind_tableLaw {marks : Vector Bool 64} {r : Replica} {f : Frame} (same own : Bool)
    (hd : dispositionOf r f = .applied) (h : r.tableLaw marks) : (applyKind marks same own f r).1.tableLaw marks := by
  unfold applyKind
  cases hk : f.kind with
  | claim =>
    exact applyToLock_tableLaw h (claimEntry_lawful _ _ (member_of_applied hd (by simp [hk]) (by simp [hk])) (h _).1)
  | yield => exact applyToLock_tableLaw h (yieldEntry_lawful _ _ _ _ (h _).1)
  | withdraw => exact applyToLock_tableLaw h (withdrawEntry_lawful _ _ (h _).1)
  | evict =>
    dsimp only
    split
    · exact removeMember_tableLaw _ h
    · exact h
  | depart => exact removeMember_tableLaw _ h
  | beacon => exact h
  | syncAsk => exact h
  | page =>
    dsimp only
    split <;> exact h
  | enrol =>
    dsimp only
    (repeat' split) <;> try exact h
    intro l
    refine ⟨LockEntry.lawful_mono (fun t ht => ?_) (h l).1, (h l).2⟩
    rw [addStation_get, ht, Bool.or_true]
  | found => exact h

/-- What a fold of writes to a table leaves at one place: what it held, or a value that was written there. -/
theorem foldl_putAt_get {α : Type} {n : Nat} (at' : Nat → Fin n) (val : Nat → α) (js : List Nat) (v : Vector α n) (i : Fin n) :
    (i ∉ js.map at' ∧ (js.foldl (fun v j => putAt v (at' j) (val j)) v)[i] = v[i]) ∨
    ∃ j ∈ js, at' j = i ∧ (js.foldl (fun v j => putAt v (at' j) (val j)) v)[i] = val j := by
  induction js generalizing v with
  | nil => simp
  | cons j js ih =>
    rw [List.foldl_cons]
    rcases ih (putAt v (at' j) (val j)) with ⟨hnot, heq⟩ | ⟨k, hk, hki, heq⟩
    · rw [heq, putAt_get]
      by_cases hj : at' j = i
      · exact .inr ⟨j, List.mem_cons_self, hj, if_pos hj⟩
      · exact .inl ⟨by simpa [Ne.symm hj] using hnot, if_neg hj⟩
    · exact .inr ⟨k, List.mem_cons_of_mem _ hk, hki, heq⟩

/-- The marks after a lock page has been installed: its four locks are collected (R24, R86). -/
def clearMarks (number : Nat) (marks : Vector Bool 64) : Vector Bool 64 :=
  (List.range 4).foldl (fun v j => putAt v (pageLock number j) false) marks

theorem clearMarks_get (number : Nat) (marks : Vector Bool 64) (l : Lock) :
    (clearMarks number marks)[l] = (marks[l] && decide (l ∉ (List.range 4).map (pageLock number))) := by
  rcases foldl_putAt_get (pageLock number) (fun _ => false) (List.range 4) marks l with ⟨hnot, heq⟩ | ⟨j, hj, hjl, heq⟩
  · rw [clearMarks, heq, decide_eq_true hnot, Bool.and_true]
  · have hmem : l ∈ (List.range 4).map (pageLock number) := List.mem_map.mpr ⟨j, hj, hjl⟩
    rw [clearMarks, heq, decide_eq_false (not_not_intro hmem), Bool.and_false]

theorem installImages_tableLaw {marks : Vector Bool 64} {r : Replica} {p : List Byte} (number : Nat) (h : r.tableLaw marks)
    (hp : ((List.range 4).all fun j => imagePasses r.roster (imageAt p j)) = true) :
    ({ r with table := installImages p number r.table } : Replica).tableLaw (clearMarks number marks) := by
  intro l
  rcases foldl_putAt_get (pageLock number) (fun j => entryOfImage (imageAt p j)) (List.range 4) r.table l with
    ⟨hnot, heq⟩ | ⟨j, hj, hjl, heq⟩
  · simp only [installImages, heq, clearMarks_get, Bool.and_eq_true]
    exact ⟨(h l).1, fun hm => (h l).2 hm.1⟩
  · have hmem : l ∈ (List.range 4).map (pageLock number) := List.mem_map.mpr ⟨j, hj, hjl⟩
    simp only [installImages, heq, clearMarks_get, hmem, not_true_eq_false, decide_false, Bool.and_false,
      Bool.false_eq_true, false_implies, and_true]
    exact entryOfImage_lawful (List.all_eq_true.mp hp j hj)

theorem installPage_tableLawful {p : List Byte} {s : State} (rep : Report) (h : s.tableLawful = true) :
    (installPage p s rep).1.tableLawful = true := by
  rw [State.tableLawful_iff] at h ⊢
  unfold installPage
  dsimp only
  split
  next hp => exact installImages_tableLaw _ h hp
  next => exact h

theorem takeFrame_tableLawful {s : State} (own : Bool) (f : Frame) (h : s.tableLawful = true) :
    (takeFrame own f s).1.tableLawful = true := by
  unfold takeFrame
  split
  next hd =>
    have happlied : ∀ x : ApplyUnit,
        x.replica = { (applyKind s.tc.uncollected (sameProfile s f.payload) own f s.au.replica).1 with
                      busSeq := s.au.replica.busSeq + 1 } → (s.withAu x).tableLawful = true := by
      intro x hx
      rw [State.tableLawful_iff] at h ⊢
      rw [State.withAu_au, hx]
      exact applyKind_tableLaw _ own hd h
    unfold applyFrame
    dsimp only
    split
    · exact installPage_tableLawful _ (happlied _ (by split <;> rfl))
    · exact happlied _ (by split <;> rfl)
  next => exact h
  next => exact h

end Sys2Proof.Machine
end

section
/-! PROOFS. What a step can do to the station state, the collection and the replica, said once: it clears them, carries them on, founds a
bus, begins a collection, or takes an accepted frame. -/

namespace Sys2Proof.Machine

variable {s t u : State}

/-! ### Two ways to go on -/

/-- The station does not vote, and holds neither replica nor collection (R30). -/
def State.parked (t : State) : Prop :=
  voting t.sc.state = false ∧ t.tc = .cleared ∧ t.au.replica = .cleared

/-- The collection and the replica are cleared with the voting, or carried on into a state that is COLLECTING as before. -/
def State.goesOn (s t : State) : Prop :=
  t.parked ∨
    (t.tc = s.tc ∧ t.au.replica = s.au.replica ∧ (t.sc.state = .collecting ↔ s.sc.state = .collecting) ∧
      (voting s.sc.state = false → voting t.sc.state = false))

theorem State.goesOn_of_eq (hsc : t.sc.state = s.sc.state) (htc : t.tc = s.tc) (hau : t.au.replica = s.au.replica) :
    s.goesOn t := by
  simp [State.goesOn, hsc, htc, hau]

theorem State.goesOn_refl (s : State) : s.goesOn s := State.goesOn_of_eq rfl rfl rfl

theorem State.goesOn.trans (h1 : s.goesOn t) (h2 : t.goesOn u) : s.goesOn u := by
  rcases h2 with hu | ⟨htc, hau, hcol, hvote⟩
  · exact .inl hu
  · rcases h1 with ⟨pv, ptc, pau⟩ | ⟨htc', hau', hcol', hvote'⟩
    · exact .inl ⟨hvote pv, htc.trans ptc, hau.trans pau⟩
    · exact .inr ⟨htc.trans htc', hau.trans hau', hcol.trans hcol', fun h => hvote (hvote' h)⟩

/-- A change that leaves the three blocks alone, after one that goes on. -/
theorem State.goesOn.keep (h : s.goesOn t) (hsc : u.sc.state = t.sc.state) (htc : u.tc = t.tc)
    (hau : u.au.replica = t.au.replica) : s.goesOn u :=
  h.trans (State.goesOn_of_eq hsc htc hau)

/-- While the station votes, nothing that goes on has changed the replica. -/
theorem State.goesOn.replica (h : s.goesOn t) (hv : voting t.sc.state = true) : t.au.replica = s.au.replica := by
  rcases h with ⟨pv, _⟩ | ⟨_, hau, _⟩
  · rw [pv] at hv; cases hv
  · exact hau

/-! ### The Station Controller -/

theorem enterState_parked (s : State) {x : StationState} (hx : voting x = false) : (enterState x s).parked := by
  refine ⟨?_, ?_, ?_⟩
  · simp [enterState_sc, StationController.inState, hx]
  · simp [enterState_tc, hx]
  · simp [enterState_au, hx, ApplyUnit.cleared]

/-- A change between voting states carries the collection and the replica on. -/
theorem enterState_carries (s : State) {x : StationState} (hx : voting x = true) :
    (enterState x s).sc.state = x ∧ (enterState x s).tc = s.tc ∧ (enterState x s).au.replica = s.au.replica := by
  refine ⟨?_, ?_, ?_⟩
  · simp [enterState_sc, StationController.inState]
  · simp [enterState_tc, hx]
  · rw [enterState_au, if_pos hx]
    split <;> rfl

theorem enterState_goesOn (hs : voting s.sc.state = true) (hn : s.sc.state ≠ .collecting) {x : StationState}
    (hx : x ≠ .collecting) : s.goesOn (enterState x s) := by
  cases hv : voting x
  · exact .inl (enterState_parked s hv)
  · obtain ⟨hstate, htc, hau⟩ := enterState_carries s hv
    exact .inr ⟨htc, hau, by simp [hstate, hn, hx], by simp [hs]⟩

/-- A parked station stays parked where the station state, collection and replica stay. -/
theorem State.parked.keep (h : s.parked) (hsc : t.sc.state = s.sc.state) (htc : t.tc = s.tc)
    (hau : t.au.replica = s.au.replica) : t.parked := by
  rwa [State.parked, hsc, htc, hau]

theorem drop_parked {c : DropCause} (h : dropsIn c s.sc.state = true) : (drop c s).parked := by
  obtain ⟨⟨hau, _, _, htc, _⟩, _, hsc, _⟩ := drop_dropped s c h
  refine ⟨?_, htc, by rw [hau]; rfl⟩
  rw [hsc]
  exact (dropState_idle s c).2.1

theorem drop_goesOn (s : State) (c : DropCause) : s.goesOn (drop c s) := by
  cases h : dropsIn c s.sc.state
  · rw [drop, if_neg (by simp [h])]
    exact s.goesOn_refl
  · exact .inl (drop_parked h)

theorem giveUpJoin_parked (s : State) (k : NoticeKind) (t : Option Station) : (giveUpJoin k t s).parked :=
  (enterState_parked s (x := .ready) rfl).keep (by simp [giveUpJoin]) (by simp [giveUpJoin]) (by simp [giveUpJoin])

theorem ask_parked (s : State) : (ask s).parked :=
  (enterState_parked s (x := .asking) rfl).keep (by simp [ask]) (by simp [ask]) (by simp [ask])

theorem otherFound_parked (s : State) (f : Frame) : (otherFound f s).parked := by
  unfold otherFound
  split
  · exact ask_parked s
  · exact giveUpJoin_parked s _ _

theorem joinAbandoned_goesOn (s : State) (c : Content) : s.goesOn (joinAbandoned c s) := by
  unfold joinAbandoned
  split
  · exact .inl (giveUpJoin_parked s _ _)
  · exact .inl (giveUpJoin_parked s _ _)
  · exact .inl (giveUpJoin_parked s _ _)
  · exact s.goesOn_refl

theorem roundOut_parked (s : State) : (roundOut s).parked := by
  unfold roundOut
  dsimp only
  split
  · exact enterState_parked _ rfl
  · exact giveUpJoin_parked _ _ _

/-! ### The reactions to a report -/

theorem ownDepart_goesOn (s : State) (rep : Report) : s.goesOn (ownDepart rep s) := by
  unfold ownDepart
  split
  · split
    next hstate =>
      split
      · have hparked := enterState_parked s (x := .ready) rfl
        exact .inl (hparked.keep (by simp) (by simp) (by simp))
      · exact s.goesOn_refl
    next =>
      split
      · refine State.goesOn_of_eq ?_ (by simp) (by simp)
        unfold staleDepartLeft
        dsimp only
        split <;> simp
      · exact s.goesOn_refl
    next => exact s.goesOn_refl
  · exact s.goesOn_refl

theorem ownEnrol_goesOn (s : State) (rep : Report) : s.goesOn (ownEnrol rep s) := by
  unfold ownEnrol
  split
  next h =>
    split
    · have hgo : s.goesOn (enterState .member s) :=
        enterState_goesOn (by simp [h.2, voting]) (by simp [h.2]) (by simp)
      exact hgo.keep (by simp) (by simp) (by simp)
    · exact State.goesOn_of_eq (by simp) (by simp) (by simp)
    · exact s.goesOn_refl
  next => exact s.goesOn_refl

/-- The report says that the round was restarted or dissolved (R38, R49). -/
def Report.breaks (rep : Report) : Bool := rep.events.any fun e => e == .roundRestarted || e == .roundDissolved

theorem roundBroken_goesOn (s : State) (rep : Report) : s.goesOn (roundBroken rep s) := by
  unfold roundBroken
  split
  · split
    · exact .inl (enterState_parked s rfl)
    · exact s.goesOn_refl
  · split
    · exact .inl (enterState_parked s rfl)
    · exact s.goesOn_refl
  · exact s.goesOn_refl

/-- A collection whose round broke is over (R49, R88). -/
theorem roundBroken_collecting {rep : Report} (h : (roundBroken rep s).sc.state = .collecting) : rep.breaks = false := by
  unfold roundBroken at h
  split at h
  · split at h
    · simp [enterState_sc, StationController.inState] at h
    next hb => exact Bool.eq_false_iff.mpr hb
  next hs =>
    split at h
    · simp [enterState_sc, StationController.inState] at h
    · rw [hs] at h; cases h
  next hs _ => exact absurd h hs

theorem collectionDone_same (h : s.sc.state = .collecting → s.tc.collected ≠ 16) : collectionDone s = s := by
  rw [collectionDone, if_neg]
  rintro ⟨hstate, hcount⟩
  exact h hstate hcount

theorem presenceReactions_goesOn (s : State) (rep : Report) : s.goesOn (presenceReactions rep s) := by
  unfold presenceReactions
  split
  · have hreport : s.goesOn (presenceReport rep s) := State.goesOn_of_eq (by simp) (by simp) (by simp)
    dsimp only
    have hdrop : s.goesOn (if ousts rep s then drop .ouster (presenceReport rep s) else presenceReport rep s) := by
      split
      · exact hreport.trans (drop_goesOn _ _)
      · exact hreport
    refine hdrop.keep ?_ ?_ ?_ <;> (split <;> simp)
  · exact s.goesOn_refl

/-- Everything before the Station Controller's report (R38). -/
theorem reactions_goesOn (s : State) (rep : Report) :
    s.goesOn (presenceReactions rep (departHolds rep (takeOutcomes rep.outcomes s))) :=
  (State.goesOn_of_eq (by simp) (by simp) (by simp)).trans (presenceReactions_goesOn _ rep)

/-- Nothing changes the three blocks after the Station Controller's report. -/
theorem handOn_after (s : State) (rep : Report) :
    ∃ v, s.goesOn v ∧ (handOn rep s).sc.state = (stationReport rep v).sc.state ∧
      (handOn rep s).tc = (stationReport rep v).tc ∧ (handOn rep s).au.replica = (stationReport rep v).au.replica := by
  unfold handOn
  split
  · refine ⟨_, reactions_goesOn s rep, ?_⟩
    simp only [reactApplied]
    split <;> simp
  · refine ⟨if rep.own ∧ rep.kind = .evict then decideEviction s else s, State.goesOn_of_eq ?_ ?_ ?_, ?_⟩
    · split <;> simp
    · split <;> simp
    · split <;> simp
    · simp [reactOther]

/-- The complete collection: ENROLLING, with everything collected carried on (R87). -/
theorem collectionDone_complete (hs : s.sc.state = .collecting) (hc : s.tc.collected = 16) :
    (collectionDone s).sc.state = .enrolling ∧ (collectionDone s).tc = s.tc ∧
    (collectionDone s).au.replica = s.au.replica := by
  obtain ⟨hstate, htc, hau⟩ := enterState_carries s (x := .enrolling) rfl
  rw [collectionDone, if_pos ⟨hs, hc⟩]
  simp [hstate, htc, hau]

/-- A station still COLLECTING at the end of a report: its round did not break, its image did not fail, and pages are left. -/
def State.stillCollects (t : State) (rep : Report) : Prop :=
  t.sc.state = .collecting → rep.breaks = false ∧ rep.imageFailure = false ∧ t.tc.collected ≠ 16

/-- The step of a complete collection to ENROLLING, everything collected carried on (R87). -/
def State.completes (s t : State) : Prop :=
  s.sc.state = .collecting ∧ s.tc.collected = 16 ∧ t.sc.state = .enrolling ∧ t.tc = s.tc ∧ t.au.replica = s.au.replica

theorem desyncDrop_cases (s : State) (rep : Report) (hb : s.sc.state = .collecting → rep.breaks = false ∧ s.tc.collected ≠ 16) :
    s.goesOn (if rep.desync || rep.imageFailure then drop .desync s else s) ∧
    (if rep.desync || rep.imageFailure then drop .desync s else s).stillCollects rep := by
  split
  next hd =>
    refine ⟨drop_goesOn s _, fun hcol => ?_⟩
    cases hv : dropsIn .desync s.sc.state
    · rw [drop, if_neg (by simp [hv])] at hcol
      rw [hcol] at hv
      cases hv
    · have hpark := (drop_parked hv).1
      rw [hcol] at hpark
      cases hpark
  next hd =>
    have hok : rep.desync = false ∧ rep.imageFailure = false := by simpa using hd
    exact ⟨s.goesOn_refl, fun hcol => ⟨(hb hcol).1, hok.2, (hb hcol).2⟩⟩

/-- The Station Controller's report: it goes on, or completes a collection (R38, R87, R94). -/
theorem stationReport_cases (s : State) (rep : Report) :
    (s.goesOn (stationReport rep s) ∧ (stationReport rep s).stillCollects rep) ∨ s.completes (stationReport rep s) := by
  have hgo := ((ownDepart_goesOn s rep).trans (ownEnrol_goesOn _ rep)).trans (roundBroken_goesOn _ rep)
  have hround := roundBroken_collecting (s := ownEnrol rep (ownDepart rep s)) (rep := rep)
  have hreport : stationReport rep s
      = if rep.desync || rep.imageFailure then drop .desync (collectionDone (roundBroken rep (ownEnrol rep (ownDepart rep s))))
        else collectionDone (roundBroken rep (ownEnrol rep (ownDepart rep s))) := rfl
  rw [hreport]
  generalize roundBroken rep (ownEnrol rep (ownDepart rep s)) = c at hgo hround
  by_cases hdone : c.sc.state = .collecting ∧ c.tc.collected = 16
  · obtain ⟨hcol, h16⟩ := hdone
    obtain ⟨dstate, dtc, dau⟩ := collectionDone_complete hcol h16
    obtain ⟨egoes, estill⟩ := desyncDrop_cases (collectionDone c) rep (by simp [dstate])
    rcases hgo with ⟨pv, _⟩ | ⟨ctc, cau, ccol, _⟩
    · rw [hcol] at pv; cases pv
    rcases hs : (if rep.desync || rep.imageFailure then true else false) with _ | _
    · rw [if_neg (by simpa using hs)]
      exact .inr ⟨ccol.mp hcol, by rw [← ctc, h16], dstate, dtc.trans ctc, dau.trans cau⟩
    · rw [if_pos (by simpa using hs)]
      have hpark : (drop .desync (collectionDone c)).parked := drop_parked (by simp [dstate, dropsIn, voting])
      exact .inl ⟨.inl hpark, fun hc => by have := hpark.1; rw [hc] at this; cases this⟩
  · have hsame := collectionDone_same (s := c) fun hcol h16 => hdone ⟨hcol, h16⟩
    rw [hsame]
    obtain ⟨egoes, estill⟩ := desyncDrop_cases c rep fun hcol => ⟨hround hcol, fun h16 => hdone ⟨hcol, h16⟩⟩
    exact .inl ⟨hgo.trans egoes, estill⟩

/-- What the blocks' reactions to a report come to (R38): they go on, or complete a collection. -/
theorem handOn_cases (s : State) (rep : Report) :
    (s.goesOn (handOn rep s) ∧ (handOn rep s).stillCollects rep) ∨ s.completes (handOn rep s) := by
  obtain ⟨v, hv, hsc, htc, hau⟩ := handOn_after s rep
  rcases stationReport_cases v rep with ⟨hgo, hstill⟩ | ⟨hcol, h16, hen, htc', hau'⟩
  · exact .inl ⟨(hv.trans hgo).keep hsc htc hau, fun hc => by rw [htc]; exact hstill (hsc ▸ hc)⟩
  · rcases hv with ⟨pv, _⟩ | ⟨vtc, vau, vcol, _⟩
    · rw [hcol] at pv; cases pv
    · exact .inr ⟨vcol.mp hcol, vtc ▸ h16, hsc.trans hen, (htc.trans htc').trans vtc, (hau.trans hau').trans vau⟩

/-- The reactions to a report change neither the collection nor the replica while the station votes. -/
theorem handOn_carries {rep : Report} (h : voting (handOn rep s).sc.state = true) :
    (handOn rep s).tc = s.tc ∧ (handOn rep s).au.replica = s.au.replica := by
  rcases handOn_cases s rep with ⟨⟨pv, _⟩ | ⟨htc, hau, _⟩, _⟩ | ⟨_, _, _, htc, hau⟩
  · rw [pv] at h; cases h
  · exact ⟨htc, hau⟩
  · exact ⟨htc, hau⟩

/-! ### Every command -/

/-- What a step can do to the station state, the collection and the replica. -/
inductive State.Evolves (s : State) : State → Prop
  /-- Everything else. -/
  | goesOn {t : State} (h : s.goesOn t) : s.Evolves t
  /-- The own FOUND (R79). -/
  | founds {t : State} (k : Station) (hs : s.sc.state = .founding) (ht : t.sc.state = .member) (htc : t.tc = s.tc)
      (hau : t.au.replica = founderReplica k) : s.Evolves t
  /-- A page 0 that names this station (R84). -/
  | collects {t : State} (ht : t.sc.state = .collecting) (hrun : t.au.replica.transfer.running = true)
      (hnext : t.au.replica.transfer.nextPage = 1) (htable : t.au.replica.table = Vector.replicate 64 LockEntry.cleared)
      (htc : t.tc = { collected := 0, uncollected := Vector.replicate 64 true }) : s.Evolves t
  /-- An accepted frame at a voting station (R34, R38). -/
  | takes {t u : State} (own : Bool) (f : Frame) (hu : u.sc.state = s.sc.state ∧ u.tc = s.tc ∧ u.au.replica = s.au.replica)
      (hv : voting s.sc.state = true) {w : State}
      (hw : w.sc.state = (takeFrame own f u).1.sc.state ∧ w.tc = (takeFrame own f u).1.tc ∧
        w.au.replica = (takeFrame own f u).1.au.replica)
      (ht : t = handOn (takeFrame own f u).2 w) : s.Evolves t

/-- What is done from a state with the same three blocks is done from this one. -/
theorem State.Evolves.from (h : t.Evolves u) (hsc : t.sc.state = s.sc.state) (htc : t.tc = s.tc)
    (hau : t.au.replica = s.au.replica) : s.Evolves u := by
  cases h with
  | goesOn h => exact .goesOn ((State.goesOn_of_eq hsc htc hau).trans h)
  | founds k hs ht htc' hau' => exact .founds k (hsc ▸ hs) ht (htc'.trans htc) hau'
  | collects ht hrun hnext htable htc' => exact .collects ht hrun hnext htable htc'
  | takes own f hu hv hw ht =>
    obtain ⟨u1, u2, u3⟩ := hu
    exact .takes own f ⟨u1.trans hsc, u2.trans htc, u3.trans hau⟩ (hsc ▸ hv) hw ht

theorem observe_evolves (own : Bool) (f : Frame) (hv : voting s.sc.state = false) : s.Evolves (observe own f s) := by
  unfold observe
  split
  next =>
    split
    · exact .goesOn (.inl (otherFound_parked _ _))
    · exact .goesOn (.inl (ask_parked _))
  next hs =>
    (repeat' split)
    · refine .founds s.station hs ?_ ?_ ?_
      · simp [found, enterState_sc, StationController.inState]
      · simp [found, enterState_tc, voting]
      · simp [found]
    · exact .goesOn (.inl (otherFound_parked _ _))
    · exact .goesOn s.goesOn_refl
  next =>
    split
    · exact .goesOn (.inl (enterState_parked s rfl))
    · exact .goesOn s.goesOn_refl
  next =>
    split
    · unfold observePageZero
      (repeat' split)
      · exact .goesOn s.goesOn_refl
      · refine .collects ?_ ?_ ?_ ?_ ?_ <;> simp [enterCollecting, enterState_sc, StationController.inState]
      · exact .goesOn (State.goesOn_of_eq rfl rfl rfl)
      · exact .goesOn s.goesOn_refl
    · exact .goesOn s.goesOn_refl
  next => exact .goesOn s.goesOn_refl

theorem acceptFrame_evolves (own : Bool) (f : Frame) (s : State) : s.Evolves (acceptFrame own f s) := by
  unfold acceptFrame
  split
  next hv =>
    refine .takes own f ⟨rfl, rfl, rfl⟩ hv ?_ rfl
    split <;> simp
  next hv =>
    have hkeep : ∀ w : State, w.sc = s.sc → w.tc = s.tc → w.au = s.au → s.Evolves (observe own f w) := fun w hsc htc hau =>
      (observe_evolves own f (by simpa [hsc] using hv)).from (by rw [hsc]) htc (by rw [hau])
    split
    · exact hkeep _ (by simp) (by simp) (by simp)
    · exact hkeep _ rfl rfl rfl

theorem reportMute_goesOn (s : State) (b : Bool) : s.goesOn (reportMute b s) := by
  unfold reportMute
  split
  · exact drop_goesOn s _
  · exact s.goesOn_refl

theorem reportDuplicate_goesOn (s : State) (b : Bool) : s.goesOn (reportDuplicate b s) := by
  unfold reportDuplicate
  split
  · exact drop_goesOn s _
  · exact s.goesOn_refl

theorem returnAttempt_goesOn (s : State) (v : Bool) : s.goesOn (returnAttempt v s) := by
  unfold returnAttempt
  dsimp only
  (repeat' split) <;> first
    | exact (State.goesOn_of_eq (by simp) (by simp) (by simp)).trans (joinAbandoned_goesOn _ _)
    | exact State.goesOn_of_eq (by simp) (by simp) (by simp)

theorem voidOwn_goesOn (s : State) (f : Frame) (rd : Reading) : s.goesOn (voidOwn f rd s) := by
  unfold voidOwn
  refine (State.goesOn_of_eq ?_ ?_ ?_).trans
    (((returnAttempt_goesOn _ true).trans (reportMute_goesOn _ _)).trans (reportDuplicate_goesOn _ _)) <;> simp

theorem endReceived_goesOn (s : State) (x : Received) (rd : Reading) : s.goesOn (endReceived x rd s) := by
  unfold endReceived
  split
  · exact s.goesOn_refl
  · exact (State.goesOn_of_eq (by simp) (by simp) (by simp)).trans (reportMute_goesOn _ _)
  · exact State.goesOn_of_eq (by simp) (by simp) (by simp)

theorem acceptedFrame_evolves (k : Kind) (rd : Reading) (s : State) : s.Evolves (acceptedFrame k rd s) := by
  unfold acceptedFrame
  (repeat' split) <;> try exact .goesOn s.goesOn_refl
  · exact (acceptFrame_evolves true _ _).from (by simp) (by simp) (by simp)
  next hv f hf hk =>
    exact (acceptFrame_evolves false f _).from (by simp [endReceived]) (by simp [endReceived]) (by simp [endReceived])
  · exact .goesOn (endReceived_goesOn s _ rd)

theorem takeTransaction_goesOn {bytes : List Byte} {act : State → Answer} (h : ∀ w : State, w.goesOn (act w).1) (s : State) :
    s.goesOn (takeTransaction bytes act s) := by
  unfold takeTransaction
  split
  · refine ((State.goesOn_of_eq ?_ ?_ ?_).trans (h (s.withHp (bytes.foldl receiveByte s.hp)))).keep ?_ ?_ ?_ <;>
      simp [holdResult]
  · exact s.goesOn_refl

theorem onLock_goesOn {act : Lock → State → Answer} (lock : Byte) (h : ∀ (l : Lock) (w : State), w.goesOn (act l w).1)
    (s : State) : s.goesOn (onLock lock act s).1 := by
  unfold onLock
  (repeat' split) <;> try exact s.goesOn_refl
  exact h _ s

theorem softReset_parked (s : State) : (softReset s).parked := by
  refine ⟨?_, by simp [softReset], by simp [softReset, ApplyUnit.cleared]⟩
  simp only [softReset, stationNotice_frame]
  split <;> rfl

theorem answerLeave_goesOn (s : State) : s.goesOn (answerLeave s).1 := by
  unfold answerLeave
  split
  next hs =>
    have hkeep : (purgeRequests (leaveHolds (stopAllGuards s))).sc = s.sc ∧
        (purgeRequests (leaveHolds (stopAllGuards s))).tc = s.tc ∧
        (purgeRequests (leaveHolds (stopAllGuards s))).au = s.au := by simp [purgeRequests]
    obtain ⟨hsc, htc, hau⟩ := hkeep
    have hgo := enterState_goesOn (s := purgeRequests (leaveHolds (stopAllGuards s))) (x := .departing)
      (by simp [hsc, hs, voting]) (by simp [hsc, hs]) (by simp)
    refine ((State.goesOn_of_eq ?_ htc ?_).trans hgo).keep ?_ ?_ ?_ <;> simp [answer, leaveBus, hsc, hau]
  next =>
    split
    · exact .inl (enterState_parked _ rfl)
    · exact s.goesOn_refl

theorem configureJoin_goesOn {x : StationController} (hs : voting s.sc.state = false) (hx : voting x.state = false) :
    s.goesOn (s.withSc x) := by
  refine .inr ⟨rfl, rfl, ?_, fun _ => hx⟩
  constructor <;> (intro h; simp_all [voting])

theorem answerConfigure_goesOn (record : Vector Byte 20) (s : State) : s.goesOn (answerConfigure record s).1 := by
  unfold answerConfigure
  (repeat' split) <;> try exact s.goesOn_refl
  next hs _ _ _ => exact configureJoin_goesOn (by simp [hs, voting]) rfl

theorem answerJoin_goesOn (s : State) : s.goesOn (answerJoin s).1 := by
  unfold answerJoin
  split
  next hs => exact configureJoin_goesOn (by simp [hs, voting]) rfl
  next => exact s.goesOn_refl

theorem answerClaim_goesOn (lock mode limit : Byte) (s : State) : s.goesOn (answerClaim lock mode limit s).1 := by
  unfold answerClaim
  split
  · exact s.goesOn_refl
  · refine onLock_goesOn lock (fun l w => ?_) s
    unfold claimLock
    (repeat' split) <;> exact State.goesOn_of_eq (by simp [answer]) (by simp [answer]) (by simp [answer])

theorem yieldLock_goesOn (l : Lock) (s : State) : s.goesOn (yieldLock l s).1 := by
  unfold yieldLock
  (repeat' split) <;> exact State.goesOn_of_eq (by simp [answer]) (by simp [answer]) (by simp [answer])

theorem withdrawLock_goesOn (l : Lock) (s : State) : s.goesOn (withdrawLock l s).1 := by
  unfold withdrawLock
  (repeat' split) <;> exact State.goesOn_of_eq (by simp [answer]) (by simp [answer]) (by simp [answer])

theorem renewLock_goesOn (l : Lock) (s : State) : s.goesOn (renewLock l s).1 := by
  unfold renewLock
  (repeat' split) <;> exact State.goesOn_of_eq (by simp [answer]) (by simp [answer]) (by simp [answer])

theorem foundingWait_goesOn (s : State) :
    s.goesOn (if s.sc.state = .listen ∧ hasEntry .joining s = false then placeEntry .found (enterState .founding s) else s) := by
  split
  · exact .inl ((enterState_parked s (x := .founding) rfl).keep (by simp) (by simp) (by simp))
  · exact s.goesOn_refl

theorem execRoundTimeout_goesOn (h : execRoundTimeout s = .next t) : s.goesOn t := by
  unfold execRoundTimeout at h
  cases h
  split
  · exact .inl (roundOut_parked s)
  · exact .inl (roundOut_parked s)
  · exact s.goesOn_refl

/-- The commands that leave the station state, the collection and the replica as they are. -/
def leavesView : Instr → Bool
  | .busOpportunity => true
  | .startBitConfirmed => true
  | .endFault => true
  | .busIdle => true
  | .ownContactReachesP => true
  | .beaconPromoted => true
  | .fenceLimit => true
  | .absenceLimit _ => true
  | .holdExpiry _ => true
  | .guardElapsed _ => true
  | .rawLevelChange _ _ => true
  | .stableLevelChange _ => true
  | .transactionBegin => true
  | .transactionEnd => true
  | .transactionTruncated => true
  | .readNoticeCompletion => true
  | .readStatusCompletion => true
  | .hardResetEnd _ _ => true
  | _ => false

theorem startFrame_state (s : State) : (startFrame s).sc.state = s.sc.state := by
  unfold startFrame
  dsimp only
  split <;> rfl

theorem leavesView_keeps {i : Instr} (hi : leavesView i = true) (h : exec i s = .next t) :
    t.sc.state = s.sc.state ∧ t.tc = s.tc ∧ t.au.replica = s.au.replica := by
  cases i <;> try cases hi
  all_goals
    cases h
    (repeat' split) <;> simp [startedByReset, startFrame_state]

/-- The inversion of exec: what a command can do to the station state, the collection and the replica. -/
theorem exec_evolves {i : Instr} (h : exec i s = .next t) : s.Evolves t := by
  by_cases hi : leavesView i = true
  · obtain ⟨hsc, htc, hau⟩ := leavesView_keeps hi h
    exact .goesOn (State.goesOn_of_eq hsc htc hau)
  cases i with
  | hardReset => cases h; exact .goesOn (.inl ⟨rfl, rfl, rfl⟩)
  | configureCommand record => cases h; exact .goesOn (takeTransaction_goesOn (answerConfigure_goesOn record) s)
  | joinCommand => cases h; exact .goesOn (takeTransaction_goesOn answerJoin_goesOn s)
  | leaveCommand => cases h; exact .goesOn (takeTransaction_goesOn answerLeave_goesOn s)
  | resetCommand => cases h; exact .goesOn (takeTransaction_goesOn (fun w => .inl (softReset_parked w)) s)
  | claimCommand lock mode limit =>
    cases h; exact .goesOn (takeTransaction_goesOn (answerClaim_goesOn lock mode limit) s)
  | yieldCommand lock => cases h; exact .goesOn (takeTransaction_goesOn (onLock_goesOn lock yieldLock_goesOn) s)
  | withdrawCommand lock => cases h; exact .goesOn (takeTransaction_goesOn (onLock_goesOn lock withdrawLock_goesOn) s)
  | renewCommand lock => cases h; exact .goesOn (takeTransaction_goesOn (onLock_goesOn lock renewLock_goesOn) s)
  | readLockCommand lock =>
    cases h
    refine .goesOn (takeTransaction_goesOn (fun w => ?_) s)
    unfold answerReadLock
    split <;> exact w.goesOn_refl
  | readRosterCommand => cases h; exact .goesOn (takeTransaction_goesOn State.goesOn_refl s)
  | readHoldsCommand => cases h; exact .goesOn (takeTransaction_goesOn State.goesOn_refl s)
  | readNoticeCommand =>
    cases h
    refine .goesOn (takeTransaction_goesOn (fun w => ?_) s)
    unfold answerReadNotice
    split <;> exact w.goesOn_refl
  | readStatusCommand => cases h; exact .goesOn (takeTransaction_goesOn (fun w => State.goesOn_of_eq rfl rfl rfl) s)
  | unknownCommand code =>
    cases h
    split
    · exact .goesOn (takeTransaction_goesOn State.goesOn_refl s)
    · exact .goesOn s.goesOn_refl
  | unconfirmedStartBit =>
    cases h
    split
    · refine .goesOn ((State.goesOn_of_eq ?_ ?_ ?_).trans ((returnAttempt_goesOn _ true).trans (reportMute_goesOn _ _))) <;>
        simp
    · exact .goesOn s.goesOn_refl
  | arbitrationLost =>
    cases h
    split
    · refine .goesOn ((State.goesOn_of_eq ?_ ?_ ?_).trans (returnAttempt_goesOn _ false)) <;> simp
    · exact .goesOn s.goesOn_refl
  | frameLost cells =>
    cases h
    (repeat' split) <;> try exact .goesOn s.goesOn_refl
    refine .goesOn ((State.goesOn_of_eq ?_ ?_ ?_).trans (reportMute_goesOn _ _)) <;> simp
  | frameVoided rd =>
    cases h
    (repeat' split) <;> try exact .goesOn s.goesOn_refl
    · exact .goesOn (voidOwn_goesOn s _ rd)
    · exact .goesOn (endReceived_goesOn s _ rd)
  | claimFrame rd => cases h; exact acceptedFrame_evolves _ rd s
  | yieldFrame rd => cases h; exact acceptedFrame_evolves _ rd s
  | withdrawFrame rd => cases h; exact acceptedFrame_evolves _ rd s
  | evictFrame rd => cases h; exact acceptedFrame_evolves _ rd s
  | departFrame rd => cases h; exact acceptedFrame_evolves _ rd s
  | beaconFrame rd => cases h; exact acceptedFrame_evolves _ rd s
  | syncAskFrame rd => cases h; exact acceptedFrame_evolves _ rd s
  | pageFrame rd => cases h; exact acceptedFrame_evolves _ rd s
  | enrolFrame rd => cases h; exact acceptedFrame_evolves _ rd s
  | foundFrame rd => cases h; exact acceptedFrame_evolves _ rd s
  | stranding =>
    cases h
    split
    · exact .goesOn (drop_goesOn s _)
    · exact .goesOn s.goesOn_refl
  | foundingWait => cases h; exact .goesOn (foundingWait_goesOn s)
  | roundTimeout => exact .goesOn (execRoundTimeout_goesOn h)
  | _ => exact absurd rfl hi

theorem countChoice_keeps (s : State) :
    (countChoice s).sc = s.sc ∧ (countChoice s).tc = s.tc ∧ (countChoice s).au = s.au := by
  unfold countChoice
  split <;> exact ⟨rfl, rfl, rfl⟩

/-- The inversion of step: what a step can do to the station state, the collection and the replica. -/
theorem step_evolves (h : step s = .next t) : s.Evolves t := by
  unfold step at h
  split at h
  · exact (exec_evolves h).from rfl rfl rfl
  · obtain ⟨hsc, htc, hau⟩ := countChoice_keeps s
    split at h
    · exact (exec_evolves h).from (by rw [hsc]) htc (by rw [hau])
    · cases h
      refine .goesOn (State.goesOn_of_eq ?_ (by simp) (by simp))
      unfold passTime
      split <;> rfl

/-! ### The law of the claim table -/

/-- The table's law rests on the collection and the replica alone. -/
theorem State.tableLawful_of_eq (htc : t.tc = s.tc) (hau : t.au.replica = s.au.replica) (h : s.tableLawful = true) :
    t.tableLawful = true := by
  rw [State.tableLawful_iff] at h ⊢
  rwa [htc, hau]

theorem State.tableLawful_cleared (h : t.au.replica.table = Vector.replicate 64 LockEntry.cleared) :
    t.tableLawful = true :=
  (State.tableLawful_iff t).mpr (Replica.tableLaw_cleared _ h)

theorem State.goesOn.tableLawful (h : s.goesOn t) (hs : s.tableLawful = true) : t.tableLawful = true := by
  rcases h with ⟨_, _, hau⟩ | ⟨htc, hau, _⟩
  · exact State.tableLawful_cleared (by rw [hau]; rfl)
  · exact State.tableLawful_of_eq htc hau hs

theorem handOn_tableLawful (rep : Report) (hs : s.tableLawful = true) : (handOn rep s).tableLawful = true := by
  rcases handOn_cases s rep with ⟨hgo, _⟩ | ⟨_, _, _, htc, hau⟩
  · exact hgo.tableLawful hs
  · exact State.tableLawful_of_eq htc hau hs

theorem State.Evolves.tableLawful (h : s.Evolves t) (hs : s.tableLawful = true) : t.tableLawful = true := by
  cases h with
  | goesOn h => exact h.tableLawful hs
  | founds k _ _ _ hau => exact State.tableLawful_cleared (by rw [hau]; rfl)
  | collects _ _ _ htable _ => exact State.tableLawful_cleared htable
  | takes own f hu _ hw ht =>
    rw [ht]
    have htook := takeFrame_tableLawful own f (State.tableLawful_of_eq hu.2.1 hu.2.2 hs)
    exact handOn_tableLawful _ (State.tableLawful_of_eq hw.2.1 hw.2.2 htook)

/-- Settles O52: a step clears the table with the voting, carries it on, or takes a frame, whose effect on each entry is lawful. -/
theorem tableLawKept : Obligations.TableLawKept := by
  intro s t hs h
  exact (step_evolves h).tableLawful hs

end Sys2Proof.Machine
end

section
/-! PROOFS. The law of the collection (R84 to R88): what an accepted frame does to the round and the collected pages of a COLLECTING
station, and how the Station Controller's report ends a collection that a frame has broken, failed or completed. -/

namespace Sys2Proof.Machine

variable {s t u : State}

/-- The law of the collection, read as it is stated in Safety.lean. -/
theorem State.collectionLawful_iff (s : State) :
    s.collectionLawful = true ↔
      (s.sc.state = .collecting → s.au.replica.transfer.running = true ∧
        s.au.replica.transfer.nextPage = s.tc.collected + 1 ∧ s.tc.collected ≤ 15 ∧
        ∀ l : Lock, s.tc.uncollected[l] = decide (4 * s.tc.collected ≤ l.val)) ∧
      (s.sc.state ≠ .collecting → ∀ l : Lock, s.tc.uncollected[l] = false) := by
  unfold State.collectionLawful
  split
  next h => simp [h, and_assoc]
  next h => simp [h]

/-- The law rests on the station state, the collection and the replica. -/
theorem State.collectionLawful_of_eq (hsc : t.sc.state = .collecting ↔ s.sc.state = .collecting) (htc : t.tc = s.tc)
    (hau : t.au.replica = s.au.replica) (h : s.collectionLawful = true) : t.collectionLawful = true := by
  rw [State.collectionLawful_iff] at h ⊢
  rwa [Ne, hsc, htc, hau]

theorem State.parked.collectionLawful (h : t.parked) : t.collectionLawful = true := by
  obtain ⟨hv, htc, _⟩ := h
  rw [State.collectionLawful_iff]
  refine ⟨fun hcol => absurd hv (by rw [hcol]; decide), fun _ l => ?_⟩
  simp [htc, TransferController.cleared]

theorem State.goesOn.collectionLawful (h : s.goesOn t) (hs : s.collectionLawful = true) : t.collectionLawful = true := by
  rcases h with hpark | ⟨htc, hau, hcol, _⟩
  · exact hpark.collectionLawful
  · exact State.collectionLawful_of_eq hcol htc hau hs

/-! ### The round of a COLLECTING station -/

/-- A round that runs is broken by a departure, or goes on at the same page. -/
theorem leaveRound_running {t : Station} {roster : StationSet} {x : TransferRecord} (h : x.running = true) :
    ((leaveRound t roster x).2 = [.roundRestarted] ∨ (leaveRound t roster x).2 = [.roundDissolved]) ∨
    ((leaveRound t roster x).2 = [] ∧ (leaveRound t roster x).1.running = true ∧
      (leaveRound t roster x).1.nextPage = x.nextPage) := by
  unfold leaveRound
  dsimp only
  split
  · split
    · exact .inl (.inl rfl)
    · exact .inl (.inr rfl)
  · exact .inr ⟨rfl, h, rfl⟩

theorem askRound_running {same : Bool} {t : Station} {roster : StationSet} {x : TransferRecord} (h : x.running = true) :
    (askRound same t roster x).2 = [] ∧ (askRound same t roster x).1.running = true ∧
      (askRound same t roster x).1.nextPage = x.nextPage := by
  rw [askRound, if_pos h]
  split <;> exact ⟨rfl, h, rfl⟩

/-- What an applied frame does to a running round: it breaks it, leaves its page, or takes the page that it is at. -/
theorem applyKind_running (marks : Vector Bool 64) (same own : Bool) (f : Frame) {r : Replica}
    (h : r.transfer.running = true) :
    ((applyKind marks same own f r).2.events = [.roundRestarted] ∨
      (applyKind marks same own f r).2.events = [.roundDissolved]) ∨
    ((applyKind marks same own f r).2.events = [] ∧ (applyKind marks same own f r).1.transfer.running = true ∧
      (applyKind marks same own f r).1.transfer.nextPage = r.transfer.nextPage) ∨
    ((byteAt f.payload 1).toNat = r.transfer.nextPage ∧
      .pageTaken (byteAt f.payload 1).toNat ∈ (applyKind marks same own f r).2.events ∧
      ((byteAt f.payload 1).toNat ≠ 16 → (applyKind marks same own f r).1.transfer.running = true ∧
        (applyKind marks same own f r).1.transfer.nextPage = r.transfer.nextPage + 1)) := by
  unfold applyKind
  cases f.kind with
  | claim => exact .inr (.inl ⟨rfl, h, rfl⟩)
  | yield => exact .inr (.inl ⟨rfl, h, rfl⟩)
  | withdraw => exact .inr (.inl ⟨rfl, h, rfl⟩)
  | evict =>
    dsimp only
    split
    · exact (leaveRound_running h).imp id .inl
    · exact .inr (.inl ⟨rfl, h, rfl⟩)
  | depart => exact (leaveRound_running h).imp id .inl
  | beacon => exact .inr (.inl ⟨rfl, h, rfl⟩)
  | syncAsk => exact .inr (.inl (askRound_running h))
  | page =>
    dsimp only
    split
    next hq =>
      simp only [pageQualifies, Bool.and_eq_true, beq_iff_eq] at hq
      refine .inr (.inr ⟨hq.2.symm, ?_, fun h16 => ?_⟩)
      · unfold takePage
        dsimp only
        split
        next h16 => simp [h16]
        next => simp
      · simp [takePage, h16, h]
    next => exact .inr (.inl ⟨rfl, h, rfl⟩)
  | enrol =>
    dsimp only
    (repeat' split) <;> exact .inr (.inl ⟨rfl, h, rfl⟩)
  | found => exact .inr (.inl ⟨rfl, h, rfl⟩)

/-- The four locks of a lock page (R23). -/
theorem mem_pageLocks {n : Nat} (hn : n ≤ 15) (l : Lock) :
    l ∈ (List.range 4).map (pageLock (n + 1)) ↔ 4 * n ≤ l.val ∧ l.val < 4 * (n + 1) := by
  have hval : ∀ j < 4, (pageLock (n + 1) j).val = 4 * n + j := by
    intro j hj
    simp only [pageLock, Fin.ofNat, Nat.add_sub_cancel]
    omega
  simp only [List.mem_map, List.mem_range]
  constructor
  · rintro ⟨j, hj, rfl⟩
    rw [hval j hj]
    omega
  · rintro ⟨hlo, hhi⟩
    refine ⟨l.val - 4 * n, by omega, Fin.ext ?_⟩
    rw [hval _ (by omega)]
    omega

/-- With page n + 1 installed the marks left are those of locks 4(n + 1) to 63. -/
theorem clearMarks_collected {marks : Vector Bool 64} {n : Nat} (hn : n ≤ 15)
    (h : ∀ l : Lock, marks[l] = decide (4 * n ≤ l.val)) (l : Lock) :
    (clearMarks (n + 1) marks)[l] = decide (4 * (n + 1) ≤ l.val) := by
  rw [clearMarks_get, h l, Bool.eq_iff_iff, Bool.and_eq_true, decide_eq_true_eq, decide_eq_true_eq, decide_eq_true_eq,
    mem_pageLocks hn]
  omega

/-! ### An accepted frame -/

/-- The collection as an accepted frame leaves it for the Station Controller's report: lawful; or broken or failed, and short of page
16; or complete. -/
def State.collectionPending (u : State) (rep : Report) : Prop :=
  u.collectionLawful = true ∨
    (u.sc.state = .collecting ∧
      (((rep.breaks = true ∨ rep.imageFailure = true) ∧ u.tc.collected ≤ 15) ∨
        (u.tc.collected = 16 ∧ ∀ l : Lock, u.tc.uncollected[l] = false)))

/-- The Station Controller's report settles what the frame has left (R86 to R88). -/
theorem handOn_collectionLawful {rep : Report} (h : s.collectionPending rep) : (handOn rep s).collectionLawful = true := by
  rcases handOn_cases s rep with ⟨hgo, hstill⟩ | ⟨hcol, h16, hen, htc, hau⟩
  · rcases h with hlaw | ⟨hcol, hbad⟩
    · exact hgo.collectionLawful hlaw
    rcases hgo with hpark | ⟨htc, _, hiff, _⟩
    · exact hpark.collectionLawful
    · obtain ⟨hbreaks, himage, hcount⟩ := hstill (hiff.mpr hcol)
      rw [htc] at hcount
      rcases hbad with ⟨hb | hi, _⟩ | ⟨h16, _⟩
      · rw [hbreaks] at hb; cases hb
      · rw [himage] at hi; cases hi
      · exact absurd h16 hcount
  · rw [State.collectionLawful_iff, hen, htc]
    refine ⟨fun h => (by cases h), fun _ => ?_⟩
    rcases h with hlaw | ⟨_, ⟨_, hle⟩ | ⟨_, hclear⟩⟩
    · have hle := ((State.collectionLawful_iff s).mp hlaw).1 hcol
      omega
    · omega
    · exact hclear

/-- A lock page of a COLLECTING station, at the page that follows those collected (R24, R86). -/
theorem installPage_pending {p : List Byte} {rep : Report} (hcol : s.sc.state = .collecting) (hle : s.tc.collected ≤ 15)
    (hmarks : ∀ l : Lock, s.tc.uncollected[l] = decide (4 * s.tc.collected ≤ l.val))
    (hnum : (byteAt p 1).toNat = s.tc.collected + 1)
    (hround : (byteAt p 1).toNat ≠ 16 → s.au.replica.transfer.running = true ∧
      s.au.replica.transfer.nextPage = s.tc.collected + 2) :
    (installPage p s rep).1.collectionPending (installPage p s rep).2 := by
  unfold installPage
  dsimp only
  split
  next =>
    have hclear : ∀ l : Lock, (clearMarks (byteAt p 1).toNat s.tc.uncollected)[l]
        = decide (4 * (s.tc.collected + 1) ≤ l.val) := by
      rw [hnum]
      exact clearMarks_collected hle hmarks
    by_cases h15 : s.tc.collected = 15
    · refine .inr ⟨hcol, .inr ⟨by simp [h15], fun l => (hclear l).trans ?_⟩⟩
      have := l.isLt
      simp only [decide_eq_false_iff_not]
      omega
    · obtain ⟨hrun, hnext⟩ := hround (by omega)
      refine .inl ((State.collectionLawful_iff _).mpr ⟨fun _ => ⟨hrun, hnext, ?_, hclear⟩, fun hn => absurd hcol hn⟩)
      simp only [State.withSc_tc, State.withTc_tc]
      omega
  next => exact .inr ⟨hcol, .inl ⟨.inr rfl, hle⟩⟩

/-- A COLLECTING station takes an applied frame (R47 to R49, R86). -/
theorem applyFrame_pending (own : Bool) (f : Frame) (hcol : s.sc.state = .collecting) (h : s.collectionLawful = true) :
    (applyFrame own f s).1.collectionPending (applyFrame own f s).2 := by
  obtain ⟨hrun, hnext, hle, hmarks⟩ := ((State.collectionLawful_iff s).mp h).1 hcol
  unfold applyFrame
  dsimp only
  generalize hx : applyKind s.tc.uncollected (sameProfile s f.payload) own f s.au.replica = x
  generalize ha : (if own then ({ s.au with replica := { x.1 with busSeq := s.au.replica.busSeq + 1 } } : ApplyUnit)
    else clearStreak { s.au with replica := { x.1 with busSeq := s.au.replica.busSeq + 1 } }) = a
  have htransfer : a.replica.transfer = x.1.transfer := by
    rw [← ha]
    split <;> rfl
  have hcases := applyKind_running s.tc.uncollected (sameProfile s f.payload) own f hrun
  rw [hx] at hcases
  rcases hcases with hbreaks | ⟨hnone, hrun', hnext'⟩ | ⟨hnum, hmem, hround⟩
  · have hbroken : takesLockPage x.2 = false ∧ x.2.breaks = true := by
      rcases hbreaks with he | he <;> simp [takesLockPage, Report.breaks, he]
    rw [if_neg (by simp [hbroken.1])]
    exact .inr ⟨hcol, .inl ⟨.inl hbroken.2, hle⟩⟩
  · rw [if_neg (by simp [takesLockPage, hnone])]
    refine .inl ((State.collectionLawful_iff _).mpr ⟨fun _ => ?_, fun hn => absurd hcol hn⟩)
    simp only [State.withAu_au, State.withAu_tc, htransfer]
    exact ⟨hrun', hnext'.trans hnext, hle, hmarks⟩
  · have htakes : takesLockPage x.2 = true := by
      simp only [takesLockPage, List.any_eq_true]
      exact ⟨_, hmem, by simp only [decide_eq_true_eq]; omega⟩
    rw [if_pos ⟨hcol, htakes⟩]
    refine installPage_pending hcol hle hmarks (hnum.trans hnext) fun h16 => ?_
    simp only [State.withAu_au, State.withAu_tc, htransfer]
    obtain ⟨hrun', hnext'⟩ := hround h16
    exact ⟨hrun', by rw [hnext', hnext]⟩

/-- Outside COLLECTING an applied frame leaves the collection alone. -/
theorem applyFrame_other (own : Bool) (f : Frame) (hcol : s.sc.state ≠ .collecting) : (applyFrame own f s).1.tc = s.tc := by
  unfold applyFrame
  dsimp only
  rw [if_neg fun h => hcol h.1]
  rfl

theorem takeFrame_pending (own : Bool) (f : Frame) (h : s.collectionLawful = true) :
    (takeFrame own f s).1.collectionPending (takeFrame own f s).2 := by
  unfold takeFrame
  split
  next =>
    by_cases hcol : s.sc.state = .collecting
    · exact applyFrame_pending own f hcol h
    · refine .inl ((State.collectionLawful_iff _).mpr ⟨fun hn => ?_, fun _ => ?_⟩)
      · rw [(applyFrame_state own f s).1] at hn
        exact absurd hn hcol
      · rw [applyFrame_other own f hcol]
        exact ((State.collectionLawful_iff s).mp h).2 hcol
  next => exact .inl h
  next => exact .inl h

theorem State.Evolves.collectionLawful (h : s.Evolves t) (hs : s.collectionLawful = true) : t.collectionLawful = true := by
  cases h with
  | goesOn h => exact h.collectionLawful hs
  | founds k hfounding hmember htc hau =>
    rw [State.collectionLawful_iff, hmember, htc]
    exact ⟨fun h => (by cases h), fun _ => ((State.collectionLawful_iff s).mp hs).2 (by simp [hfounding])⟩
  | collects hcol hrun hnext _ htc =>
    rw [State.collectionLawful_iff, htc]
    exact ⟨fun _ => ⟨hrun, hnext, Nat.zero_le _, by simp⟩, fun hn => absurd hcol hn⟩
  | takes own f hu hv hw ht =>
    obtain ⟨usc, utc, uau⟩ := hu
    obtain ⟨wsc, wtc, wau⟩ := hw
    rw [ht]
    refine handOn_collectionLawful ?_
    have htook := takeFrame_pending own f (State.collectionLawful_of_eq (by rw [usc]) utc uau hs)
    rcases htook with hlaw | ⟨hcol, hbad⟩
    · exact .inl (State.collectionLawful_of_eq (by rw [wsc]) wtc wau hlaw)
    · exact .inr ⟨wsc.trans hcol, by rwa [wtc]⟩

/-- Settles O55: a frame leaves the collection lawful, or pending for the Station Controller, which settles it in the same step. -/
theorem collectionLawKept : Obligations.CollectionLawKept := by
  intro s t hs h
  exact (step_evolves h).collectionLawful hs

end Sys2Proof.Machine
end

section
/-! PROOFS. The station's own clock on an empty queue (log entries 1 and 2), and the state after reset. -/

namespace Sys2Proof.Machine

/-! ### The clock -/

theorem nextLimit_none {s : State} (h : dueLimits s = []) : nextLimit s = none := by
  rw [nextLimit, h]

/-- With limits due, one of them is taken next. -/
theorem nextLimit_due {s : State} (h : dueLimits s ≠ []) : ∃ c ∈ dueLimits s, nextLimit s = some c := by
  unfold nextLimit
  split
  next hnil => exact absurd hnil h
  next c hone => exact ⟨c, by simp [hone], rfl⟩
  next c d rest hmany =>
    have hlt : Config.pick s.choices % (rest.length + 2) < (c :: d :: rest).length := Nat.mod_lt _ (by simp)
    refine ⟨_, ?_, List.getElem?_eq_getElem hlt⟩
    rw [hmany]
    exact List.getElem_mem hlt

/-- Only a choice among several limits is counted. -/
theorem countChoice_eq (s : State) :
    countChoice s = { s with choices := if 2 ≤ (dueLimits s).length then s.choices + 1 else s.choices } := by
  unfold countChoice
  split
  next hmany => simp [hmany]
  next hfew =>
    have hlen : ¬ 2 ≤ (dueLimits s).length := fun hlen =>
      match hl : dueLimits s, hlen with
      | c :: d :: rest, _ => hfew c d rest hl
    rw [if_neg hlen]

theorem step_of_limit {s : State} {c : Instr} (hq : s.pending = []) (h : nextLimit s = some c) :
    step s = exec c (countChoice s) := by
  simp [step, hq, h]

theorem step_of_time {s : State} (hq : s.pending = []) (h : dueLimits s = []) : step s = .next (passTime s) := by
  simp [step, hq, nextLimit_none h]

theorem dueLimits_reset {s : State} (h : s.inReset = true) : dueLimits s = [] := by
  simp [dueLimits, h]

theorem tickGuard_still {g : Guard} (h : ∀ a, g ≠ .running a) : tickGuard g = g := by
  cases g with
  | running a => exact absurd rfl (h a)
  | stopped => rfl
  | elapsed => rfl

/-- Settles O2: a due limit is the next one, and without one each timer's field of tick is read off. -/
theorem idleStepFollowsClock : Obligations.IdleStepFollowsClock := by
  intro s hq
  refine ⟨fun hdue => ?_, fun hreset => ?_, fun hnone hrun => ?_⟩
  · obtain ⟨c, hc, hnext⟩ := nextLimit_due hdue
    exact ⟨c, hc, by rw [step_of_limit hq hnext, countChoice_eq]⟩
  · rw [step_of_time hq (dueLimits_reset hreset), passTime, if_pos hreset]
  · have htime : passTime s = (tick s).withHp (hostClock s.hp) := by simp [passTime, hrun]
    refine ⟨_, step_of_time hq hnone, ?_⟩
    rw [htime]
    refine ⟨rfl, rfl, rfl, rfl, rfl, rfl, rfl, fun m => ?_, rfl, fun i => ?_, fun n a hn => ?_, fun n hn => ?_, fun p => ?_⟩
    · simp [tick]
    · simp [tick]
    · simp only [Fin.getElem_fin] at hn
      simp [tick, hn, tickGuard]
    · have hstill := tickGuard_still hn
      simp only [Fin.getElem_fin] at hstill
      simp [tick, hstill]
    · simp [tick]

/-! ### Reset -/

theorem reset_parked : State.reset.parked := ⟨rfl, rfl, rfl⟩

/-- The hold list is empty after reset. -/
theorem reset_slots (t : Tier) : State.reset.rt.slots[t] = none := by
  simp [State.reset, RequestTracker.empty]

theorem reset_holdsLawful : State.reset.holdsLawful = true := by
  simp only [State.holdsLawful, reset_slots, List.all_eq_true]
  exact fun _ _ => trivial

theorem reset_queueLawful : State.reset.queueLawful = true := by
  simp only [State.queueLawful, reset_slots]
  decide

/-- Settles O51: the parked state meets the laws of the table and the collection, and each other law is that of an empty block. -/
theorem resetIsSafe : Obligations.ResetIsSafe := by
  have htable : State.reset.tableLawful = true := State.tableLawful_cleared rfl
  have hcollection : State.reset.collectionLawful = true := reset_parked.collectionLawful
  have htransfer : State.reset.transferLawful = true := by decide
  have hstate : State.reset.stateLawful = true := by decide
  have hattempt : State.reset.attemptLawful = true := by decide
  have hguards : State.reset.guardsLawful = true := by decide
  have hcounts : State.reset.countsLawful = true := by decide
  have hagree : State.reset.holdsAgree = true := by decide
  refine ⟨?_, fun i r hr => ?_⟩
  · simp only [State.safe, htable, htransfer, reset_holdsLawful, hstate, hcollection, hattempt, hguards, hcounts,
      reset_queueLawful, hagree, Bool.and_self]
  · rw [reset_slots] at hr
    cases hr

end Sys2Proof.Machine
end

section
/-! PROOFS. What a feeder composes a joiner reads (R23, R24, R82, R99, R204): stations, entry images, lock pages and page 0. -/

namespace Sys2Proof.Machine

/-! ### Stations as bytes -/

@[simp] theorem stationByte_toNat (t : Station) : (stationByte t).toNat = t.val := by
  have := t.isLt
  simp only [stationByte, BitVec.toNat_ofNat]
  omega

@[simp] theorem ofNat_stationByte (t : Station) : (Fin.ofNat 32 (stationByte t).toNat : Station) = t := by
  simp

@[simp] theorem stationOfByte_stationByte (t : Station) : stationOfByte (stationByte t) = t := by
  simp [stationOfByte]

theorem stationByte_injective : Function.Injective stationByte := by
  intro a b h
  rw [← ofNat_stationByte a, h, ofNat_stationByte]

@[simp] theorem stationByte_ne_none (t : Station) : stationByte t ≠ 255#8 := by
  intro h
  have hval := congrArg BitVec.toNat h
  have := t.isLt
  simp at hval
  omega

@[simp] theorem memberByte_stationByte (roster : StationSet) (t : Station) :
    memberByte roster (stationByte t) = roster[t] := by
  simp [memberByte]

/-- A count that fits a byte reads back. -/
theorem countByte_toNat {n : Nat} (h : n < 256) : (BitVec.ofNat 8 n : Byte).toNat = n := by
  rw [BitVec.toNat_ofNat, Nat.mod_eq_of_lt h]

/-! ### Entry images -/

theorem generationBytes_append (g : Generation) : ((g.extractLsb' 8 8 ++ g.extractLsb' 0 8 : BitVec 16)) = g := by
  apply BitVec.eq_of_getLsbD_eq
  intro i hi
  rw [BitVec.getLsbD_append]
  by_cases hlow : i < 8
  · simp [hlow]
  · have hhigh : 8 + (i - 8) = i := by omega
    have hlt : i - 8 < 8 := by omega
    simp [hlow, hhigh, hlt]

theorem imageOf_length (e : LockEntry) : (imageOf e).length = 12 := by
  simp [imageOf, generationBytes]

/-- The bytes of an image: its holder, generation and waiter count, then its waiters with the code for none behind them. -/
theorem imageOf_eq {e : LockEntry} (h : e.waiters.length ≤ 8) :
    imageOf e = optStationByte e.holder :: e.generation.extractLsb' 8 8 :: e.generation.extractLsb' 0 8
      :: BitVec.ofNat 8 e.waiters.length :: (e.waiters.map stationByte ++ List.replicate (8 - e.waiters.length) 0xFF) := by
  have htake : (e.waiters.map stationByte ++ List.replicate 8 0xFF).take 8
      = e.waiters.map stationByte ++ List.replicate (8 - e.waiters.length) 0xFF := by
    rw [List.take_append, List.take_of_length_le (by simpa using h), List.length_map, List.take_replicate,
      min_eq_left (Nat.sub_le _ _)]
  simp only [imageOf, generationBytes, htake, List.cons_append, List.nil_append]

theorem imageWaiters_imageOf {e : LockEntry} (h : e.waiters.length ≤ 8) :
    imageWaiters (imageOf e) = e.waiters.map stationByte := by
  have hcount : (BitVec.ofNat 8 e.waiters.length : Byte).toNat = e.waiters.length := countByte_toNat (by omega)
  rw [imageOf_eq h]
  simp only [imageWaiters, byteAt, List.drop_succ_cons, List.drop_zero, List.getD_cons_succ, List.getD_cons_zero, hcount]
  exact List.take_left' (by simp)

theorem entryOfImage_imageOf {e : LockEntry} (h : e.waiters.length ≤ 8) : entryOfImage (imageOf e) = e := by
  have hw : (e.waiters.map stationByte).map (fun b => (Fin.ofNat 32 b.toNat : Station)) = e.waiters := by
    rw [List.map_map]
    exact (List.map_congr_left fun t _ => ofNat_stationByte t).trans (List.map_id _)
  simp only [entryOfImage, imageWaiters_imageOf h, hw]
  rw [imageOf_eq h]
  obtain ⟨holder, generation, waiters⟩ := e
  cases holder with
  | none => simp [byteAt, optStationByte, generationBytes_append]
  | some t => simp [byteAt, optStationByte, generationBytes_append, stationByte_ne_none t]

theorem imagePasses_imageOf {e : LockEntry} (roster : StationSet) (h : e.waiters.length ≤ 8) :
    imagePasses roster (imageOf e) = e.lawful roster := by
  have hcount : (BitVec.ofNat 8 e.waiters.length : Byte).toNat = e.waiters.length := countByte_toNat (by omega)
  have hall : (e.waiters.map stationByte).all (memberByte roster) = e.waiters.all fun t => roster[t] := by
    rw [List.all_map]
    exact congrArg e.waiters.all (funext (memberByte_stationByte roster))
  simp only [imagePasses, LockEntry.lawful, imageWaiters_imageOf h, hall, List.nodup_map_iff stationByte_injective]
  rw [imageOf_eq h]
  simp only [byteAt, List.getD_cons_zero, List.getD_cons_succ, hcount]
  cases e.holder with
  | none =>
    rw [Bool.eq_iff_iff]
    simp [optStationByte, h]
    tauto
  | some t =>
    rw [Bool.eq_iff_iff]
    simp [optStationByte, h, List.mem_map_of_injective stationByte_injective]
    tauto

/-! ### Lock pages -/

/-- The j-th of pieces of one length laid end to end. -/
theorem take_drop_flatMap {α β : Type} (g : α → List β) {k : Nat} (hg : ∀ x, (g x).length = k) (l : List α) (j : Nat)
    (hj : j < l.length) : ((l.flatMap g).drop (k * j)).take k = g l[j] := by
  induction l generalizing j with
  | nil => exact absurd hj (Nat.not_lt_zero j)
  | cons x l ih =>
    rw [List.flatMap_cons]
    cases j with
    | zero => rw [Nat.mul_zero, List.drop_zero]; exact List.take_left' (hg x)
    | succ j =>
      have hskip : k * (j + 1) = (g x).length + k * j := by rw [hg x, Nat.mul_succ, Nat.add_comm]
      rw [hskip, List.drop_append, Nat.add_sub_cancel_left, List.drop_of_length_le (by omega), List.nil_append]
      exact ih j (Nat.lt_of_succ_lt_succ hj)

/-- The j-th of four images behind a header of two bytes (R204). -/
theorem imageAt_flatMap (a b : Byte) (g : Nat → List Byte) (hg : ∀ j, (g j).length = 12) (j : Fin 4) :
    imageAt (a :: b :: (List.range 4).flatMap g) j.val = g j.val := by
  have himage := take_drop_flatMap g hg (List.range 4) j.val (by simp)
  rw [List.getElem_range] at himage
  rw [imageAt, Nat.add_comm 2 (12 * j.val), List.drop_succ_cons, List.drop_succ_cons]
  exact himage

theorem composePage_lock {r : Replica} (h : r.transfer.nextPage ≠ 0) :
    composePage r = r.transfer.round :: BitVec.ofNat 8 r.transfer.nextPage
      :: (List.range 4).flatMap fun j => imageOf r.table[(Fin.ofNat 64 (4 * (r.transfer.nextPage - 1) + j) : Lock)] := by
  simp [composePage, h]

/-! ### Page 0 -/

/-- The bytes of a page 0 (R204). -/
theorem composePage_zero {r : Replica} (h : r.transfer.nextPage = 0) :
    composePage r = r.transfer.round :: 0 :: stationByte r.transfer.feeder :: BitVec.ofNat 8 (stationsOf r.roster).length
      :: ((stationsOf r.roster).map stationByte ++ BitVec.ofNat 8 r.transfer.roundList.length
        :: (r.transfer.roundList.map stationByte ++ BitVec.ofNat 8 r.transfer.pendingList.length
          :: r.transfer.pendingList.map stationByte)) := by
  simp [composePage, h]

/-- The fields of a payload laid out as a page 0 with its counts (R204). -/
theorem pageZero_fields {a b c d e f : Byte} {M R K : List Byte} (hd : d.toNat = M.length) (he : e.toNat = R.length)
    (hf : f.toNat = K.length) {p : List Byte} (hp : p = a :: b :: c :: d :: (M ++ e :: (R ++ f :: K))) :
    byteAt p (4 + M.length) = e ∧ byteAt p (5 + M.length + R.length) = f ∧ pageZeroMembers p = M ∧ pageZeroRound p = R ∧
    pageZeroPending p = K := by
  have hdrop : ∀ k, p.drop (k + 4) = (M ++ e :: (R ++ f :: K)).drop k := fun k => by rw [hp]; rfl
  have hbyte : ∀ k, byteAt p (k + 4) = ((M ++ e :: (R ++ f :: K)).drop k).headD 0 := by
    intro k
    rw [byteAt, List.getD_eq_getElem?_getD, ← List.head?_drop, hdrop]
    cases (M ++ e :: (R ++ f :: K)).drop k <;> rfl
  have hdropM : (M ++ e :: (R ++ f :: K)).drop M.length = e :: (R ++ f :: K) := List.drop_left' rfl
  have hdropR : (M ++ e :: (R ++ f :: K)).drop (1 + M.length + R.length) = f :: K := by
    rw [show 1 + M.length + R.length = M.length + (R.length + 1) by omega, ← List.drop_drop, hdropM, List.drop_succ_cons]
    exact List.drop_left' rfl
  have hcountR : byteAt p (4 + M.length) = e := by
    rw [Nat.add_comm 4, hbyte, hdropM]; rfl
  have hcountK : byteAt p (5 + M.length + R.length) = f := by
    rw [show 5 + M.length + R.length = 1 + M.length + R.length + 4 by omega, hbyte, hdropR]; rfl
  have hcountM : byteAt p 3 = d := by rw [hp]; rfl
  refine ⟨hcountR, hcountK, ?_, ?_, ?_⟩
  · rw [pageZeroMembers, hcountM, hd, hdrop 0]
    exact List.take_left' rfl
  · simp only [pageZeroRound, hcountM, hd, hcountR, he]
    rw [show 5 + M.length = (M.length + 1) + 4 by omega, hdrop, ← List.drop_drop, hdropM]
    exact List.take_left' rfl
  · simp only [pageZeroPending, hcountM, hd, hcountR, he, hcountK, hf]
    rw [show 6 + M.length + R.length = (1 + M.length + R.length + 1) + 4 by omega, hdrop, ← List.drop_drop, hdropR]
    exact List.take_of_length_le (by simp)

/-- A page 0 that a feeder composes: its bytes, each count that of its list (R99, R204). -/
theorem composePage_fields {r : Replica} (h : r.transfer.nextPage = 0) (hround : r.transfer.roundList.length ≤ 4)
    (hpending : r.transfer.pendingList.length ≤ 4) :
    pageZeroMembers (composePage r) = (stationsOf r.roster).map stationByte ∧
    pageZeroRound (composePage r) = r.transfer.roundList.map stationByte ∧
    pageZeroPending (composePage r) = r.transfer.pendingList.map stationByte ∧
    pageZeroSized (composePage r) = true := by
  have hmembers : (stationsOf r.roster).length ≤ 32 := countOf_le r.roster
  have hcm := countByte_toNat (n := (stationsOf r.roster).length) (by omega)
  have hcr := countByte_toNat (n := r.transfer.roundList.length) (by omega)
  have hcp := countByte_toNat (n := r.transfer.pendingList.length) (by omega)
  obtain ⟨hbyteR, hbyteP, hM, hR, hP⟩ := pageZero_fields (by rw [hcm, List.length_map]) (by rw [hcr, List.length_map])
    (by rw [hcp, List.length_map]) (composePage_zero h)
  refine ⟨hM, hR, hP, ?_⟩
  have hbyteM : byteAt (composePage r) 3 = BitVec.ofNat 8 (stationsOf r.roster).length := by
    rw [composePage_zero h]; rfl
  rw [List.length_map] at hbyteR hbyteP
  rw [List.length_map] at hbyteP
  simp only [pageZeroSized, hbyteM, hcm, hbyteR, hcr, hbyteP, hcp, Bool.and_eq_true, decide_eq_true_eq]
  refine ⟨⟨⟨hmembers, hround⟩, hpending⟩, ?_⟩
  rw [composePage_zero h]
  simp only [List.length_cons, List.length_append, List.length_map]
  omega

theorem map_stationOfByte (l : List Station) : (l.map stationByte).map stationOfByte = l := by
  rw [List.map_map]
  exact (List.map_congr_left fun t _ => stationOfByte_stationByte t).trans (List.map_id _)

/-- A joiner reads the page 0 that a feeder composes (R82). -/
theorem readPageZero_composePage {r : Replica} (h : r.transfer.nextPage = 0) (hfeeder : r.roster[r.transfer.feeder] = true)
    (hround : r.transfer.roundList.length ≤ 4) (hrnd : r.transfer.roundList.Nodup)
    (hpending : r.transfer.pendingList.length ≤ 4) (hpnd : r.transfer.pendingList.Nodup) :
    readPageZero (composePage r)
      = some { round := r.transfer.round, feeder := r.transfer.feeder, members := stationsOf r.roster,
               roundList := r.transfer.roundList, pendingList := r.transfer.pendingList } := by
  obtain ⟨hM, hR, hP, _⟩ := composePage_fields h hround hpending
  have hbyte0 : byteAt (composePage r) 0 = r.transfer.round := by rw [composePage_zero h]; rfl
  have hbyte2 : byteAt (composePage r) 2 = stationByte r.transfer.feeder := by rw [composePage_zero h]; rfl
  have hmem : r.transfer.feeder ∈ stationsOf r.roster := (mem_stationsOf _ _).mpr hfeeder
  have hpos : 1 ≤ (stationsOf r.roster).length := List.length_pos_of_mem hmem
  have hsmall : ((stationByte r.transfer.feeder :: ((stationsOf r.roster).map stationByte
      ++ r.transfer.roundList.map stationByte ++ r.transfer.pendingList.map stationByte)).all
      fun b => decide (b.toNat < 32)) = true := by
    rw [← List.map_append, ← List.map_append, ← List.map_cons, List.all_map, List.all_eq_true]
    exact fun t _ => by simp
  unfold readPageZero
  simp only [hM, hR, hP, hbyte0, hbyte2, hsmall, Bool.true_or, if_true, map_stationOfByte, stationOfByte_stationByte]
  exact if_pos ⟨hpos, countOf_le r.roster, stationsOf_nodup r.roster, hmem, hround, hrnd, hpending, hpnd⟩

/-- Settles O25: the page is written out byte by byte, and each field is read off at its place. -/
theorem pagesReadBack : Obligations.PagesReadBack := by
  refine ⟨fun r h hfeeder hround hrnd hpending hpnd => ⟨?_, readPageZero_composePage h hfeeder hround hrnd hpending hpnd⟩,
    fun r hlo hhi => ?_, fun e roster h => ⟨imageOf_length e, entryOfImage_imageOf h, imagePasses_imageOf roster h⟩⟩
  · obtain ⟨_, _, _, hsized⟩ := composePage_fields h hround hpending
    rw [composePage_zero h] at hsized ⊢
    simpa [lengthMatches] using hsized
  · have hcompose := composePage_lock (r := r) (by omega)
    have hnumber := countByte_toNat (n := r.transfer.nextPage) (by omega)
    have hne : BitVec.ofNat 8 r.transfer.nextPage ≠ 0#8 := by
      intro hzero
      rw [hzero] at hnumber
      simp at hnumber
      omega
    refine ⟨?_, by rw [hcompose]; rfl, by rw [hcompose]; exact hnumber, fun j l hl => ?_⟩
    · rw [hcompose]
      simp [lengthMatches, hne, hnumber, hhi, List.length_flatMap, imageOf_length]
    · rw [hcompose, imageAt_flatMap _ _ _ (fun k => imageOf_length _) j]
      have hlock : (Fin.ofNat 64 (4 * (r.transfer.nextPage - 1) + j.val) : Lock) = l := by
        apply Fin.ext
        have := l.isLt
        simp only [Fin.ofNat]
        omega
      exact congrArg (fun k : Lock => imageOf r.table[k]) hlock

end Sys2Proof.Machine
end

section
/-! PROOFS. One frame at two stations (R7, R50): the replica that an accepted frame leaves is a function of the replica and the frame. -/

namespace Sys2Proof.Machine

variable {s t : State}

/-- The replica after an accepted frame at a voting station that collects no pages (R34). -/
def frameReplica (marks : Vector Bool 64) (same : Bool) (f : Frame) (r : Replica) : Replica :=
  if dispositionOf r f = .applied then { (applyKind marks same false f r).1 with busSeq := r.busSeq + 1 } else r

/-- Sender and receiver do the same to the replica (R33). -/
theorem applyKind_own (marks : Vector Bool 64) (same : Bool) (f : Frame) (r : Replica) :
    (applyKind marks same true f r).1 = (applyKind marks same false f r).1 := by
  unfold applyKind
  cases f.kind <;> dsimp only <;> (repeat' split) <;> rfl

theorem takeFrame_replica (own : Bool) (f : Frame) (hcol : s.sc.state ≠ .collecting) :
    (takeFrame own f s).1.au.replica = frameReplica s.tc.uncollected (sameProfile s f.payload) f s.au.replica := by
  have hown : (applyKind s.tc.uncollected (sameProfile s f.payload) own f s.au.replica).1
      = (applyKind s.tc.uncollected (sameProfile s f.payload) false f s.au.replica).1 := by
    cases own
    · rfl
    · exact applyKind_own _ _ f _
  unfold takeFrame frameReplica
  split
  next hd =>
    rw [if_pos hd]
    unfold applyFrame
    dsimp only
    rw [if_neg fun h => hcol h.1, hown]
    split <;> rfl
  next hd => rw [if_neg (by simp [hd])]; rfl
  next hd _ => rw [if_neg hd]

theorem acceptFrame_replica (own : Bool) (f : Frame) (hv : voting s.sc.state = true) (hcol : s.sc.state ≠ .collecting)
    (ht : voting (acceptFrame own f s).sc.state = true) :
    (acceptFrame own f s).au.replica = frameReplica s.tc.uncollected (sameProfile s f.payload) f s.au.replica := by
  rw [acceptFrame, if_pos hv] at ht ⊢
  dsimp only at ht ⊢
  rw [(handOn_carries ht).2, ← takeFrame_replica own f hcol]
  split <;> simp

/-- A receiver of a frame that still votes afterwards holds the frame's replica. -/
theorem receives_replica {rd : Reading} {f : Frame} (h : s.receives rd f) (hcol : s.sc.state ≠ .collecting)
    (hexec : exec (frameCommand f.kind rd) s = .next t) (ht : voting t.sc.state = true) :
    t.au.replica = frameReplica s.tc.uncollected (sameProfile s f.payload) f s.au.replica := by
  rw [exec_frameCommand, acceptedFrame_receives s h] at hexec
  cases hexec
  exact acceptFrame_replica (s := s.withLc (s.lc.heard rd.cells)) false f h.2.1 hcol ht

/-- So does its sender. -/
theorem sends_replica {rd : Reading} {f : Frame} (h : s.sends rd f) (hv : voting s.sc.state = true)
    (hcol : s.sc.state ≠ .collecting) (hexec : exec (frameCommand f.kind rd) s = .next t) (ht : voting t.sc.state = true) :
    t.au.replica = frameReplica s.tc.uncollected (sameProfile s f.payload) f s.au.replica := by
  obtain ⟨x, hx, _⟩ := acceptOwn_line s f rd
  rw [exec_frameCommand, acceptedFrame_sends s h, hx] at hexec
  cases hexec
  exact acceptFrame_replica (s := s.withLc x) true f hv hcol ht

theorem periodTime_injective : Function.Injective periodTime := by
  intro a b
  cases a <;> cases b <;> decide

/-- Stations of one profile find the same frames to be of their profile (R51). -/
theorem sameProfile_agrees (hs : s.sc.config.isSome = true) (ht : t.sc.config.isSome = true)
    (hp : beaconPeriod s = beaconPeriod t) (hq : quorumOf s = quorumOf t) (p : List Byte) :
    sameProfile s p = sameProfile t p := by
  obtain ⟨a, ha⟩ := Option.isSome_iff_exists.mp hs
  obtain ⟨b, hb⟩ := Option.isSome_iff_exists.mp ht
  simp only [beaconPeriod, quorumOf, ha, hb] at hp hq
  simp only [sameProfile, ha, hb, profileEquals, periodTime_injective hp, hq]

/-- Settles O42: both stations hold the one replica that the frame leaves of theirs. -/
theorem replicasAgree : Obligations.ReplicasAgree := by
  intro s t s' t' f rds rdt hs ht hscol htcol hsall htall hscfg htcfg hperiod hquorum hreplica hsexec htexec hsv htv
  have hmarks : s.tc.uncollected = t.tc.uncollected := table_ext fun l => (hsall l).trans (htall l).symm
  have htreplica : t'.au.replica = frameReplica t.tc.uncollected (sameProfile t f.payload) f t.au.replica := by
    rcases ht with ht | ⟨ht, hv⟩
    · exact receives_replica ht htcol htexec htv
    · exact sends_replica ht hv htcol htexec htv
  rw [receives_replica hs hscol hsexec hsv, htreplica, hmarks, hreplica,
    sameProfile_agrees hscfg htcfg hperiod hquorum]

end Sys2Proof.Machine
end

section
/-! PROOFS. A lock frame at a receiver (R11 to R19): the one entry it changes, and the outcomes it gives. -/

namespace Sys2Proof.Machine

variable {s : State} {rd : Reading} {f : Frame}

/-! ### How a lock frame reaches the entry -/

/-- The report of an applied frame that changes one lock at a receiver. -/
def lockReport (f : Frame) (outcomes : List LockOutcome) : Report := { plainReport false f .applied with outcomes := outcomes }

theorem lockReport_plain (f : Frame) (l : List LockOutcome) : (lockReport f l).plain := by
  simp [lockReport, plainReport, Report.plain]

/-- The state in which the blocks take the report of a frame that left the replica x. -/
def State.heardWith (s : State) (rd : Reading) (x : Replica) : State :=
  (s.withLc (s.lc.heard rd.cells)).withAu (.after x)

/-- A frame that changes one lock, applied at a receiver: the blocks take the entry's change and its outcomes (R8, R34). -/
theorem lockFrame_applied {change : LockEntry → EntryChange} (h : s.receives rd f) (hstep : s.inStep f)
    (hk : f.kind ≠ .found)
    (happly : ∀ same r, applyKind s.tc.uncollected same false f r
      = ((applyToLock s.tc.uncollected (lockField f.payload) change r).1,
         lockReport f (applyToLock s.tc.uncollected (lockField f.payload) change r).2)) :
    exec (frameCommand f.kind rd) s
      = .next (handOn (lockReport f (applyToLock s.tc.uncollected (lockField f.payload) change s.au.replica).2)
          (s.heardWith rd (applyToLock s.tc.uncollected (lockField f.payload) change s.au.replica).1)) := by
  rw [acceptFrame_applied s h (dispositionOf_inStep s hk hstep), happly]
  · simp only [State.heardWith, applyToLock]
  · intro _
    rw [happly]
    simp [takesLockPage, lockReport, plainReport]

/-- On an uncollected lock nothing changes and no outcome follows (R8, R85). -/
theorem applyToLock_marked {marks : Vector Bool 64} {l : Lock} (change : LockEntry → EntryChange) (r : Replica)
    (h : marks[l] = true) : applyToLock marks l change r = (r, []) := by
  simp only [applyToLock, changeLock, h, if_true]

theorem applyToLock_clear {marks : Vector Bool 64} {l : Lock} (change : LockEntry → EntryChange) (r : Replica)
    (h : marks[l] = false) :
    applyToLock marks l change r = ({ r with table := putAt r.table l (change r.table[l]).1 }, (change r.table[l]).2) := by
  simp only [applyToLock, changeLock, h, Bool.false_eq_true, if_false]

/-- A lock frame leaves the receiver as State.followed says, with the replica as applied. -/
theorem lockReport_followed (h : s.receives rd f) (x : Replica) (l : List LockOutcome) :
    s.followed (handOn (lockReport f l) (s.heardWith rd x)) rd f ∧ (handOn (lockReport f l) (s.heardWith rd x)).au = .after x :=
  handOn_followed h (.after x) (lockReport_plain f l) rfl rfl rfl

/-- Outcomes of another station leave this one's locks alone. -/
theorem lockReport_sameLocks (h : s.receives rd f) (x : Replica) {l : List LockOutcome}
    (hl : ∀ o ∈ l, o.subject ≠ s.station) : s.sameLocks (handOn (lockReport f l) (s.heardWith rd x)) :=
  handOn_sameLocks h (.after x) (lockReport_plain f l) rfl rfl hl

/-! ### CLAIM -/

theorem claimEntry_subject (t : Station) (m : Mode) (l : Lock) (e : LockEntry) :
    ∀ o ∈ (claimEntry t m l e).2, o.subject = t := by
  unfold claimEntry
  (repeat' split) <;> simp [outcomeOf]

theorem claimEntry_free {t : Station} {m : Mode} {l : Lock} {e : LockEntry} (h : e.holder = none) :
    (claimEntry t m l e).1 = { e with holder := some t, generation := e.generation + 1 } := by
  simp [claimEntry, h]

theorem claimEntry_refused {t k : Station} {m : Mode} {l : Lock} {e : LockEntry} (h : e.holder = some k)
    (hno : k = t ∨ t ∈ e.waiters ∨ m = .tryOnly ∨ 8 ≤ e.waiters.length) : (claimEntry t m l e).1 = e := by
  unfold claimEntry
  simp only [h]
  (repeat' split) <;> try rfl
  next hkt hmem _ hroom => exact absurd hno (by simp [hkt, hmem, hroom])

theorem claimEntry_queued {t k : Station} {l : Lock} {e : LockEntry} (h : e.holder = some k) (hkt : k ≠ t)
    (hmem : t ∉ e.waiters) (hroom : e.waiters.length < 8) :
    (claimEntry t .wait l e).1 = { e with waiters := e.waiters ++ [t] } := by
  simp [claimEntry, h, hkt, hmem, Nat.not_le.mpr hroom]

/-- Settles O26: the entry's new value is the row of R11 that claimEntry takes. -/
theorem claimFrameApplied : Obligations.ClaimFrameApplied := by
  intro s rd f h hk hstep
  have hexec := lockFrame_applied h hstep (by simp [hk]) (change := claimEntry f.sender (modeField f.payload) (lockField f.payload))
    (fun same r => by simp only [applyKind, hk]; rfl)
  rw [hk] at hexec
  refine ⟨_, hexec, (lockReport_followed h _ _).1, fun hother => lockReport_sameLocks h _ fun o ho => ?_, fun hm => ?_, fun hm => ?_⟩
  · rcases hm : s.tc.uncollected[lockField f.payload] with _ | _
    · rw [applyToLock_clear _ _ hm] at ho
      rw [claimEntry_subject _ _ _ _ o ho]
      exact hother
    · rw [applyToLock_marked _ _ hm] at ho
      cases ho
  · rw [(lockReport_followed h _ _).2, applyToLock_marked _ _ hm]
  · refine ⟨_, by rw [(lockReport_followed h _ _).2, applyToLock_clear _ _ hm], claimEntry_free, fun k hholder =>
      ⟨claimEntry_refused hholder, fun hkt hmem hmode hroom => ?_⟩⟩
    rw [hmode]
    exact claimEntry_queued hholder hkt hmem hroom

/-! ### WITHDRAW -/

theorem withdrawEntry_subject (t : Station) (l : Lock) (e : LockEntry) : ∀ o ∈ (withdrawEntry t l e).2, o.subject = t := by
  unfold withdrawEntry
  split <;> simp [outcomeOf]

theorem withdrawEntry_absent {t : Station} {l : Lock} {e : LockEntry} (h : t ∉ e.waiters) : (withdrawEntry t l e).1 = e := by
  simp [withdrawEntry, h]

theorem withdrawEntry_waiting {t : Station} {l : Lock} {e : LockEntry} {ahead behind : List Station}
    (h : e.waiters = ahead ++ t :: behind) (hnot : t ∉ ahead) :
    (withdrawEntry t l e).1 = { e with waiters := ahead ++ behind } := by
  have hmem : t ∈ e.waiters := by simp [h]
  rw [withdrawEntry, if_pos hmem, h, List.erase_append_right _ hnot, List.erase_cons_head]

/-- Settles O28: the sender is erased from the waiter list of a collected entry, wherever it stands. -/
theorem withdrawFrameApplied : Obligations.WithdrawFrameApplied := by
  intro s rd f h hk hstep
  have hexec := lockFrame_applied h hstep (by simp [hk]) (change := withdrawEntry f.sender (lockField f.payload))
    (fun same r => by simp only [applyKind, hk]; rfl)
  rw [hk] at hexec
  refine ⟨fun hm => ?_, fun hm => ?_⟩
  · rw [applyToLock_marked _ _ hm] at hexec
    exact ⟨_, hexec, (lockReport_followed h _ _).1, lockReport_sameLocks h _ (by simp), (lockReport_followed h _ _).2⟩
  · rw [applyToLock_clear _ _ hm] at hexec
    refine ⟨_, _, hexec, (lockReport_followed h _ _).1, fun hother => lockReport_sameLocks h _ fun o ho => ?_,
      (lockReport_followed h _ _).2, withdrawEntry_absent, fun ahead behind => withdrawEntry_waiting⟩
    rw [withdrawEntry_subject _ _ _ o ho]
    exact hother

end Sys2Proof.Machine
end

section
/-! PROOFS. The statement on EVICT frames fails for an own EVICT: it reads the entry CONTENDING before the own entry is removed, and asks
for no law of the attempt, so another request frame may be CONTENDING beside the frame that is sent. -/

namespace Sys2Proof.Machine

/-- The frame of an own EVICT of station 20 by station 3. -/
def strayEvict : Frame := { cls := 0, sender := 3, kind := .evict, flags := 0, busSeq := 0, payload := [20] }

/-- The record of lock 12, WITHDRAWING with its WITHDRAW in the queue. -/
def strayRecord : HoldRecord :=
  { lock := 12, origin := .host, state := .withdrawing, holdLimit := 0, generation := none, withdrawAsked := true,
    holdTimer := none, deferred := none }

/-- Station 3, a MEMBER waiting behind station 20 for lock 12, sends its EVICT of station 20 while the entry CONTENDING in its queue is
the WITHDRAW of lock 12 (against State.attemptLawful). -/
def strayState : State :=
  { State.reset with
    station := 3
    sc := { StationController.reset with state := .member }
    lc := { LineController.reset with state := .sending, sending := some strayEvict }
    au := { ApplyUnit.cleared with replica :=
      { Replica.cleared with roster := setOfList [3, 20],
                             table := putAt Replica.cleared.table 12 { holder := some 20, generation := 0, waiters := [3] } } }
    rt := { slots := putAt RequestTracker.empty.slots 1 (some strayRecord) }
    oq := { entries := [{ newEntry (.withdraw 12) with contending := true }] } }

theorem strayState_sends : strayState.sendsInStep (readingOf strayEvict) strayEvict := by
  refine ⟨⟨rfl, rfl, rfl, rfl⟩, .inl rfl, rfl, rfl, by decide⟩

/-- The only record is that of lock 12, which a grant moves to HELD. -/
theorem strayState_awaits {l : Lock} {r : HoldRecord} (h : recordFor strayState l = some r) : strayState.awaits r := by
  have hslots : ∀ i : Tier, strayState.rt.slots[i] = none ∨ strayState.rt.slots[i] = some strayRecord := by decide
  have hr : r = strayRecord := by
    unfold recordFor at h
    rcases hslots (tierOf l) with hs | hs <;> rw [hs] at h
    · cases h
    · dsimp only at h
      split at h
      · exact (Option.some.inj h).symm
      · cases h
  subst hr
  exact ⟨.inr rfl, fun _ => .inl rfl⟩

/-- The grant by the removal of station 20 finds no frame CONTENDING any more, and clears the mark. -/
theorem strayState_slot :
    (acceptedFrame .evict (readingOf strayEvict) strayState).rt.slots[(1 : Tier)]
      = some { strayRecord with state := .held, generation := some 1, withdrawAsked := false } := by
  rw [show Kind.evict = strayEvict.kind from rfl, acceptedFrame_sends _ strayState_sends.1]
  decide +kernel

/-- The statement has the mark stay. -/
theorem strayState_slotAfter :
    strayState.slotAfter (targetField strayEvict.payload) 1
      = some { strayRecord with state := .held, generation := some 1, withdrawAsked := true } := by
  decide

/-- Refutes O29: an own EVICT of a station that hands lock 12 over, while the entry CONTENDING is the WITHDRAW of that lock. The own
entry is removed before the grant is taken (R152), so the withdraw-asked mark clears, where State.markStays says that it stays. -/
theorem not_evictFrameApplied : ¬ Obligations.EvictFrameApplied := by
  rintro ⟨_, hown⟩
  obtain ⟨t, hexec, _, _, _, _, _, hgone, _⟩ := hown strayState _ strayEvict strayState_sends rfl (by decide) (by decide)
  have ht : acceptedFrame .evict (readingOf strayEvict) strayState = t :=
    Host.Outcome.next.inj ((exec_frameCommand strayState .evict _).symm.trans hexec)
  obtain ⟨_, _, hhands⟩ := hgone (by decide)
  obtain ⟨⟨hslots, _⟩, _⟩ := hhands (fun h => by cases h) fun l r _ hr => strayState_awaits hr
  have hslot := hslots 1
  rw [← ht, strayState_slot, strayState_slotAfter] at hslot
  exact absurd hslot (by decide)

end Sys2Proof.Machine
end

section
/-! PROOFS. The grants that reach this station in one application (R15, R20, R113): one grant on its record, and the grants of several
locks one after the other. -/

namespace Sys2Proof.Machine

variable {s u : State} {l : Lock} {r : HoldRecord} {g : Generation}

/-! ### Records -/

theorem recordFor_some : recordFor s l = some r ↔ s.rt.slots[tierOf l] = some r ∧ r.lock = l := by
  unfold recordFor
  cases s.rt.slots[tierOf l] with
  | none => simp
  | some x =>
    dsimp only
    split
    next hx => simp only [Option.some.injEq]; exact ⟨fun h => ⟨h, h ▸ hx⟩, fun h => h.1⟩
    next hx =>
      simp only [reduceCtorEq, Option.some.injEq, false_iff, not_and]
      rintro rfl
      exact hx

theorem recordFor_congr (h : u.rt = s.rt) (l : Lock) : recordFor u l = recordFor s l := by
  simp [recordFor, h]

@[simp] theorem grantTaken_lock (s : State) (r : HoldRecord) (g : Generation) : (s.grantTaken r g).lock = r.lock := by
  unfold State.grantTaken
  split <;> rfl

/-! ### One grant -/

/-- The record as a grant first leaves it: HELD, before its pin is looked at (R113, R120). -/
def State.heldRecord (s : State) (r : HoldRecord) (g : Generation) : HoldRecord :=
  { r with state := .held, generation := some g, withdrawAsked := s.markStays r,
           holdTimer := if r.holdLimit ≠ 0 ∧ s.sc.state = .member then some 0 else none }

/-- A station that has taken a grant, before the pin is looked at. -/
def State.holding (s : State) (r : HoldRecord) (g : Generation) : State :=
  lockNotice r.grantKind r.lock (some g) .none
    (startGuards r.lock (setSlot (tierOf r.lock) (some (s.heldRecord r g)) (cancelRequest (tierOf r.lock) s)))

theorem takeGrant_holding (g : Generation) (h : r.state = .waiting ∨ r.state = .withdrawing) :
    takeGrant g r s = evaluateOrigin r.origin (s.holding r g) := by
  rcases h with h | h <;> simp only [takeGrant, h, enterHeld, State.holding, State.heldRecord, State.markStays, HoldRecord.grantKind] <;> rfl

theorem holding_oq : (s.holding r g).oq.entries
    = s.oq.entries.filter fun e => e.contending || !(ownerOf e.content == .slot (tierOf r.lock)) := by
  simp [State.holding, cancelRequest, cancelQueued]

theorem holding_slots : (s.holding r g).rt.slots = putAt s.rt.slots (tierOf r.lock) (some (s.heldRecord r g)) := by
  simp [State.holding, setSlot]

theorem holding_frame :
    (s.holding r g).sc = s.sc ∧ (s.holding r g).ri = s.ri ∧ (s.holding r g).station = s.station ∧
    (s.holding r g).au = s.au ∧ (s.holding r g).pm = s.pm := by
  simp [State.holding]

/-- Which guards a lock's start restarts (R130). -/
theorem startGuards_get (l : Lock) (s : State) (n : GrantLine) :
    (startGuards l s).gl.guards[n]
      = if s.sc.state = .member ∧ fenced s = false ∧ grantBinding s n = some l then s.freshGuard else s.gl.guards[n] := by
  unfold startGuards
  split
  next h =>
    simp only [setGuards, State.withGl_gl, tabulate_get, h, true_and]
    cases hb : grantBinding s n with
    | none => simp
    | some k => by_cases hk : k = l <;> simp [hk, startedGuard, State.freshGuard]
  next h =>
    have hno : ¬ (s.sc.state = .member ∧ fenced s = false ∧ grantBinding s n = some l) := fun ⟨hm, hf, _⟩ => h ⟨hm, hf⟩
    rw [if_neg hno]

theorem holding_guard (n : GrantLine) :
    (s.holding r g).gl.guards[n] = if s.sc.state = .member ∧ fenced s = false ∧ grantBinding s n = some r.lock then s.freshGuard
      else s.gl.guards[n] := by
  have hgl : (s.holding r g).gl
      = (startGuards r.lock (setSlot (tierOf r.lock) (some (s.heldRecord r g)) (cancelRequest (tierOf r.lock) s))).gl := by
    simp [State.holding]
  rw [hgl, startGuards_get]
  rfl

theorem holding_hp : (s.holding r g).hp = s.hp.noticed
    [{ kind := r.grantKind, lock := some r.lock, station := none, generation := some g, qualifier := .none,
       busSeq := s.au.replica.busSeq }] := by
  rw [State.holding, lockNotice_hp]
  simp

theorem holding_record : recordFor (s.holding r g) r.lock = some (s.heldRecord r g) := by
  rw [recordFor_some, holding_slots]
  exact ⟨putAt_get_self _ _ _, rfl⟩

/-- With its pin asserted, or with none, the record stays HELD (R108). -/
theorem evaluateOrigin_holding (hb : s.sc.state = .member → s.bound r) (hpin : s.pinFell r = false) :
    evaluateOrigin r.origin (s.holding r g) = s.holding r g := by
  obtain ⟨hsc, hri, _⟩ := holding_frame (s := s) (r := r) (g := g)
  have hbind : ∀ p, requestBinding (s.holding r g) p = requestBinding s p := fun p => by simp [requestBinding, hsc]
  cases ho : r.origin with
  | host => rfl
  | req p =>
    simp only [evaluateOrigin, evaluatePin, hbind, hsc, hri]
    cases hp : requestBinding s p with
    | none => rfl
    | some k =>
      dsimp only
      split
      next hm =>
        have hk : k = r.lock := by
          rcases hb hm with h | ⟨q, h, hq⟩
          · rw [ho] at h; cases h
          · rw [ho] at h; cases h
            exact Option.some.inj (hp.symm.trans hq)
        have hstable : s.ri.inputs[p].stable = true := by simpa [State.pinFell, hm, ho] using hpin
        rw [hk, holding_record]
        simp only [hstable, if_true]
      next => rfl

/-- With its pin deasserted the record is yielded at once (R108, R113). -/
theorem evaluateOrigin_fell (hb : s.sc.state = .member → s.bound r) (hpin : s.pinFell r = true) :
    evaluateOrigin r.origin (s.holding r g) = yieldRecord .released (s.heldRecord r g) (s.holding r g) := by
  obtain ⟨hsc, hri, _⟩ := holding_frame (s := s) (r := r) (g := g)
  have hbind : ∀ p, requestBinding (s.holding r g) p = requestBinding s p := fun p => by simp [requestBinding, hsc]
  simp only [State.pinFell, Bool.and_eq_true, beq_iff_eq] at hpin
  obtain ⟨hm, hlow⟩ := hpin
  rcases hb hm with h | ⟨p, h, hp⟩
  · rw [h] at hlow; cases hlow
  · have hlow' : s.ri.inputs[p].stable = false := by simpa [h] using hlow
    simp only [h, evaluateOrigin, evaluatePin, hbind, hp, hsc, hm, if_true, holding_record, hri, hlow',
      Bool.false_eq_true, if_false, State.heldRecord]

/-- The YIELD that a grant to a record with its pin deasserted places at once (R108, R119). -/
def State.fellEntries (s : State) (r : HoldRecord) (g : Generation) : List Entry :=
  if s.pinFell r = true ∧ s.markStays r = false then [newEntry (.yield r.lock g .released)] else []

theorem grantTaken_held (hpin : s.pinFell r = false) : s.grantTaken r g = s.heldRecord r g := by
  by_cases ht : r.holdLimit = 0 ∨ s.sc.state ≠ .member
  · have hno : ¬ (r.holdLimit ≠ 0 ∧ s.sc.state = .member) := by tauto
    simp only [State.grantTaken, State.heldRecord, hpin, Bool.false_eq_true, if_false, if_pos ht, if_neg hno]
  · have hyes : r.holdLimit ≠ 0 ∧ s.sc.state = .member := by tauto
    simp only [State.grantTaken, State.heldRecord, hpin, Bool.false_eq_true, if_false, if_neg ht, if_pos hyes]

theorem putAt_twice {α : Type} {n : Nat} (v : Vector α n) (i : Fin n) (x y : α) : putAt (putAt v i x) i y = putAt v i y := by
  apply table_ext
  intro j
  simp only [putAt_get]
  split <;> rfl

/-- The slot and the queue after the YIELD of a record that a grant has just made HELD (R108, R119). -/
theorem yieldRecord_holding (hpin : s.pinFell r = true) :
    (yieldRecord .released (s.heldRecord r g) (s.holding r g)).rt.slots
      = putAt s.rt.slots (tierOf r.lock) (some (s.grantTaken r g)) ∧
    (yieldRecord .released (s.heldRecord r g) (s.holding r g)).oq.entries
      = (s.holding r g).oq.entries ++ s.fellEntries r g := by
  cases hmark : s.markStays r <;>
    simp [yieldRecord, State.heldRecord, State.grantTaken, State.fellEntries, hmark, hpin, placeEntry, setSlot,
      holding_slots, putAt_twice]

/-- What one grant does on the record that awaits it (R113). -/
theorem takeGrant_taken (g : Generation) (h : s.awaits r) :
    (takeGrant g r s).rt.slots = putAt s.rt.slots (tierOf r.lock) (some (s.grantTaken r g)) ∧ (takeGrant g r s).ri = s.ri ∧
    (takeGrant g r s).hp = s.hp.noticed
      [{ kind := r.grantKind, lock := some r.lock, station := none, generation := some g, qualifier := .none,
         busSeq := s.au.replica.busSeq }] ∧
    (takeGrant g r s).oq.entries
      = s.oq.entries.filter (fun e => e.contending || !(ownerOf e.content == .slot (tierOf r.lock))) ++ s.fellEntries r g ∧
    (s.pinFell r = false → ∀ n : GrantLine, (takeGrant g r s).gl.guards[n]
      = if s.sc.state = .member ∧ fenced s = false ∧ grantBinding s n = some r.lock then s.freshGuard else s.gl.guards[n]) := by
  obtain ⟨hwait, hb⟩ := h
  obtain ⟨_, hri, _⟩ := holding_frame (s := s) (r := r) (g := g)
  rw [takeGrant_holding g hwait]
  cases hpin : s.pinFell r
  · rw [evaluateOrigin_holding hb hpin, grantTaken_held hpin, holding_oq]
    exact ⟨holding_slots, hri, holding_hp, by simp [State.fellEntries, hpin], fun _ n => holding_guard n⟩
  · obtain ⟨hslots, hoq⟩ := yieldRecord_holding (g := g) hpin
    rw [evaluateOrigin_fell hb hpin, hslots, hoq, holding_oq]
    have hhp : (yieldRecord .released (s.heldRecord r g) (s.holding r g)).hp = (s.holding r g).hp := by simp
    exact ⟨rfl, by simp [hri], hhp.trans holding_hp, rfl, fun h => (by cases h)⟩

/-! ### Grants of several locks -/

/-- The notice of a grant of a lock, if a record awaits it (R113). -/
def State.grantNoticeAt (s : State) (g : Lock → Generation) (l : Lock) : List Notice :=
  match recordFor s l with
  | some r => [{ kind := r.grantKind, lock := some l, station := none, generation := some (g l), qualifier := .none,
                 busSeq := s.au.replica.busSeq }]
  | none => []

/-- This station u after the grants of the locks ls with their generations, from s (R113). -/
structure State.GrantsTaken (s u : State) (g : Lock → Generation) (ls : List Lock) : Prop where
  slots : ∀ i : Tier, u.rt.slots[i]
    = (s.rt.slots[i]).map fun r => if tierOf r.lock = i ∧ r.lock ∈ ls then s.grantTaken r (g r.lock) else r
  inputs : u.ri = s.ri
  notices : u.hp = s.hp.noticed (ls.flatMap (s.grantNoticeAt g))
  attempt : ∀ e : Entry, e.contending = true → (e ∈ u.oq.entries ↔ e ∈ s.oq.entries)
  cleared : ∀ l r, l ∈ ls → recordFor s l = some r → s.pinFell r = false →
    ∀ e ∈ u.oq.entries, e.contending = false → ownerOf e.content ≠ .slot (tierOf l)
  yielded : ∀ l r, l ∈ ls → recordFor s l = some r → s.pinFell r = true → s.markStays r = false →
    newEntry (.yield l (g l) .released) ∈ u.oq.entries
  guards : (∀ l r, l ∈ ls → recordFor s l = some r → s.pinFell r = false) → ∀ n : GrantLine, u.gl.guards[n]
    = if s.sc.state = .member ∧ fenced s = false ∧ ∃ l ∈ ls, grantBinding s n = some l ∧ (recordFor s l).isSome = true
      then s.freshGuard else s.gl.guards[n]
  frame : u.station = s.station ∧ u.sc = s.sc ∧ u.au = s.au ∧ u.pm = s.pm

theorem State.GrantsTaken.nil (s : State) (g : Lock → Generation) : s.GrantsTaken s g [] where
  slots := by simp
  inputs := rfl
  notices := by simp
  attempt := by simp
  cleared := by simp
  yielded := by simp
  guards := by simp
  frame := ⟨rfl, rfl, rfl, rfl⟩

/-- The grant of a further lock finds the record as it was. -/
theorem State.GrantsTaken.recordFor_other {g : Lock → Generation} {ls : List Lock} (h : s.GrantsTaken u g ls) (hl : l ∉ ls) :
    recordFor u l = recordFor s l := by
  unfold recordFor
  rw [h.slots]
  cases s.rt.slots[tierOf l] with
  | none => rfl
  | some x =>
    simp only [Option.map_some]
    split
    next hin =>
      have hne : x.lock ≠ l := fun hx => hl (hx ▸ hin.2)
      rw [grantTaken_lock, if_neg hne, if_neg hne]
    next => rfl

/-- What a record makes of a grant rests on the blocks that the earlier grants have left alone. -/
theorem State.GrantsTaken.same {g : Lock → Generation} {ls : List Lock} (h : s.GrantsTaken u g ls) (r : HoldRecord) :
    u.pinFell r = s.pinFell r ∧ u.markStays r = s.markStays r ∧ (s.awaits r → u.awaits r) ∧
    ∀ x, u.grantTaken r x = s.grantTaken r x := by
  obtain ⟨_, hsc, _, _⟩ := h.frame
  have hpin : u.pinFell r = s.pinFell r := by simp only [State.pinFell, hsc, h.inputs]
  have hcontends : slotContends .withdraw (tierOf r.lock) u = slotContends .withdraw (tierOf r.lock) s := by
    rw [Bool.eq_iff_iff]
    simp only [slotContends, List.any_eq_true, Bool.and_eq_true]
    constructor
    · rintro ⟨e, he, ⟨hc, ho⟩, hk⟩
      exact ⟨e, (h.attempt e hc).mp he, ⟨hc, ho⟩, hk⟩
    · rintro ⟨e, he, ⟨hc, ho⟩, hk⟩
      exact ⟨e, (h.attempt e hc).mpr he, ⟨hc, ho⟩, hk⟩
  have hmark : u.markStays r = s.markStays r := by simp only [State.markStays, hcontends]
  refine ⟨hpin, hmark, ?_, fun x => by simp only [State.grantTaken, hpin, hmark, hsc]⟩
  simp only [State.awaits, State.bound, requestBinding, hsc]
  exact id

/-- Records of different locks stand in different slots. -/
theorem tier_ne_of_records {k : Lock} {x : HoldRecord} (hl : recordFor s l = some r) (hk : recordFor s k = some x)
    (hne : k ≠ l) : tierOf k ≠ tierOf l := by
  rw [recordFor_some] at hl hk
  obtain ⟨hl, hlock⟩ := hl
  obtain ⟨hk, hklock⟩ := hk
  intro htier
  simp only [htier, hl] at hk
  cases hk
  exact hne (hklock.symm.trans hlock)

/-- The grant of a lock for which no record stands is disregarded (R118). -/
theorem State.GrantsTaken.snoc_none {g : Lock → Generation} {ls : List Lock} (h : s.GrantsTaken u g ls)
    (hnone : recordFor s l = none) : s.GrantsTaken u g (ls ++ [l]) := by
  have hnot : ∀ k r, recordFor s k = some r → k ∈ ls ++ [l] → k ∈ ls := by
    intro k r hk hmem
    rcases List.mem_append.mp hmem with hmem | hmem
    · exact hmem
    · rw [List.mem_singleton.mp hmem, hnone] at hk
      cases hk
  refine ⟨fun i => ?_, h.inputs, ?_, h.attempt, fun k r hmem hk => h.cleared k r (hnot k r hk hmem) hk,
    fun k r hmem hk => h.yielded k r (hnot k r hk hmem) hk, fun hpin n => ?_, h.frame⟩
  · rw [h.slots i]
    cases hs : s.rt.slots[i] with
    | none => rfl
    | some r =>
      have hiff : (tierOf r.lock = i ∧ r.lock ∈ ls) ↔ (tierOf r.lock = i ∧ r.lock ∈ ls ++ [l]) :=
        and_congr_right fun hi => ⟨List.mem_append_left _, hnot r.lock r (recordFor_some.mpr ⟨hi ▸ hs, rfl⟩)⟩
      simp only [Option.map_some, hiff]
  · rw [h.notices, List.flatMap_append]
    simp [State.grantNoticeAt, hnone]
  · rw [h.guards fun k r hmem hk => hpin k r (List.mem_append_left _ hmem) hk]
    have hiff : (∃ k ∈ ls, grantBinding s n = some k ∧ (recordFor s k).isSome = true) ↔
        ∃ k ∈ ls ++ [l], grantBinding s n = some k ∧ (recordFor s k).isSome = true := by
      constructor
      · rintro ⟨k, hk, hrest⟩
        exact ⟨k, List.mem_append_left _ hk, hrest⟩
      · rintro ⟨k, hk, hbind, hsome⟩
        obtain ⟨r, hr⟩ := Option.isSome_iff_exists.mp hsome
        exact ⟨k, hnot k r hr hk, hbind, hsome⟩
    simp only [hiff]

/-- The grant of a further lock on the record that awaits it (R113). -/
theorem State.GrantsTaken.snoc_some {g : Lock → Generation} {ls : List Lock} (h : s.GrantsTaken u g ls) (hl : l ∉ ls)
    (hr : recordFor s l = some r) (hawaits : s.awaits r) : s.GrantsTaken (takeGrant (g l) r u) g (ls ++ [l]) := by
  obtain ⟨hpin, hmark, hwait, htaken⟩ := h.same r
  obtain ⟨hslot, hlock⟩ := recordFor_some.mp hr
  obtain ⟨_, hsc, hau, hpm⟩ := h.frame
  obtain ⟨gslots, gri, ghp, goq, gguards⟩ := takeGrant_taken (g l) (hwait hawaits)
  rw [hlock] at gslots ghp goq gguards
  have hfell : u.fellEntries r (g l) = s.fellEntries r (g l) := by simp only [State.fellEntries, hpin, hmark]
  have hmem : ∀ e, e ∈ (takeGrant (g l) r u).oq.entries ↔
      (e ∈ u.oq.entries ∧ (e.contending = true ∨ ownerOf e.content ≠ .slot (tierOf l))) ∨ e ∈ s.fellEntries r (g l) := by
    intro e
    rw [goq, hfell]
    simp
  have hyield : ∀ e ∈ s.fellEntries r (g l), e = newEntry (.yield l (g l) .released) := by
    intro e he
    unfold State.fellEntries at he
    split at he
    · rw [hlock] at he
      exact List.mem_singleton.mp he
    · cases he
  have htier : ∀ k x, k ∈ ls → recordFor s k = some x → tierOf k ≠ tierOf l := fun k x hk hx =>
    tier_ne_of_records hr hx fun hkl => hl (hkl ▸ hk)
  refine ⟨fun i => ?_, gri.trans h.inputs, ?_, fun e hc => ?_, fun k x hk hx hxpin e he hc => ?_,
    fun k x hk hx hxpin hxmark => ?_, fun hall n => ?_, ?_⟩
  · rw [gslots, putAt_get, htaken]
    split
    next hi => subst hi; simp [hslot, hlock]
    next hi =>
      rw [h.slots i]
      congr 1
      funext x
      have hiff : (tierOf x.lock = i ∧ x.lock ∈ ls) ↔ (tierOf x.lock = i ∧ x.lock ∈ ls ++ [l]) := by
        refine and_congr_right fun hx => ?_
        rw [List.mem_append, List.mem_singleton, or_iff_left]
        rintro hxl
        exact hi (hxl ▸ hx)
      simp only [hiff]
  · rw [ghp, h.notices, HostPort.noticed_append, List.flatMap_append, hau]
    simp [State.grantNoticeAt, hr]
  · rw [hmem, ← h.attempt e hc]
    constructor
    · rintro (⟨he, _⟩ | he)
      · exact he
      · rw [hyield e he] at hc; cases hc
    · exact fun he => .inl ⟨he, .inl hc⟩
  · rcases List.mem_append.mp hk with hk | hk
    · rcases (hmem e).mp he with ⟨he, _⟩ | he
      · exact h.cleared k x hk hx hxpin e he hc
      · rw [hyield e he]
        exact fun ho => htier k x hk hx (Owner.slot.inj ho).symm
    · rw [List.mem_singleton] at hk
      subst hk
      cases hr.symm.trans hx
      rcases (hmem e).mp he with ⟨_, ho | ho⟩ | he
      · rw [ho] at hc; cases hc
      · exact ho
      · simp [State.fellEntries, hxpin] at he
  · rw [hmem]
    rcases List.mem_append.mp hk with hk | hk
    · refine .inl ⟨h.yielded k x hk hx hxpin hxmark, .inr fun ho => htier k x hk hx (Owner.slot.inj ho)⟩
    · rw [List.mem_singleton] at hk
      subst hk
      cases hr.symm.trans hx
      right
      simp [State.fellEntries, hxpin, hxmark, hlock]
  · have hbind : grantBinding u n = grantBinding s n := by simp only [grantBinding, hsc]
    have htime : guardTimeOf u = guardTimeOf s := by simp only [guardTimeOf, hsc]
    have hfresh : u.freshGuard = s.freshGuard := by simp only [State.freshGuard, htime]
    have hfence : fenced u = fenced s := by simp only [fenced, hpm]
    have hold := h.guards (fun k x hk => hall k x (List.mem_append_left _ hk)) n
    rw [gguards (hpin.trans (hall l r (by simp) hr)) n, hbind, hfresh, hfence, hsc, hold]
    by_cases hmf : s.sc.state = .member ∧ fenced s = false
    · obtain ⟨hm, hf⟩ := hmf
      simp only [hm, hf, true_and]
      by_cases hb : grantBinding s n = some l
      · rw [if_pos hb, if_pos ⟨l, by simp, hb, by simp [hr]⟩]
      · rw [if_neg hb]
        have hiff : (∃ k ∈ ls, grantBinding s n = some k ∧ (recordFor s k).isSome = true) ↔
            ∃ k ∈ ls ++ [l], grantBinding s n = some k ∧ (recordFor s k).isSome = true := by
          constructor
          · rintro ⟨k, hk, hrest⟩
            exact ⟨k, List.mem_append_left _ hk, hrest⟩
          · rintro ⟨k, hk, hbk, hsome⟩
            rcases List.mem_append.mp hk with hk | hk
            · exact ⟨k, hk, hbk, hsome⟩
            · exact absurd (List.mem_singleton.mp hk ▸ hbk) hb
        simp only [hiff]
    · rw [if_neg fun ⟨hm, hf, _⟩ => hmf ⟨hm, hf⟩, if_neg fun ⟨hm, hf, _⟩ => hmf ⟨hm, hf⟩,
        if_neg fun ⟨hm, hf, _⟩ => hmf ⟨hm, hf⟩]
  · obtain ⟨fstation, fsc, fau, fpm⟩ := h.frame
    refine ⟨?_, ?_, ?_, ?_⟩ <;> simp [fstation, fsc, fau, fpm]

theorem takeOutcome_granted_none {t : Station} (h : recordFor s l = none) : takeOutcome (outcomeOf .granted l t g) s = s := by
  simp [takeOutcome, outcomeOf, h]

theorem takeOutcome_granted_some {t : Station} (h : recordFor s l = some r) :
    takeOutcome (outcomeOf .granted l t g) s = takeGrant g r s := by
  simp [takeOutcome, outcomeOf, h]

/-- Grants of different locks to this station, taken in order (R113, R118). -/
theorem takeGrants_taken (g : Lock → Generation) (ls : List Lock) (hls : ls.Nodup)
    (h : ∀ l r, l ∈ ls → recordFor s l = some r → s.awaits r) :
    s.GrantsTaken ((ls.map fun l => outcomeOf .granted l s.station (g l)).foldl (fun t o => takeOutcome o t) s) g ls := by
  induction ls using List.reverseRecOn with
  | nil => exact .nil s g
  | append_singleton ls l ih =>
    rw [List.nodup_append] at hls
    obtain ⟨hnodup, _, hdisjoint⟩ := hls
    have hl : l ∉ ls := fun hmem => hdisjoint l hmem l (by simp) rfl
    have hprev := ih hnodup fun k r hk => h k r (List.mem_append_left _ hk)
    rw [List.map_append, List.foldl_append]
    have hrecord := hprev.recordFor_other hl
    cases hr : recordFor s l with
    | none =>
      rw [hr] at hrecord
      simp only [List.map_cons, List.map_nil, List.foldl_cons, List.foldl_nil, takeOutcome_granted_none hrecord]
      exact hprev.snoc_none hr
    | some r =>
      rw [hr] at hrecord
      simp only [List.map_cons, List.map_nil, List.foldl_cons, List.foldl_nil, takeOutcome_granted_some hrecord]
      exact hprev.snoc_some hl hr (h l r (by simp) hr)

end Sys2Proof.Machine
end

section
/-! PROOFS. What grants leave once the other blocks have reacted (R64, R130, R132), and the YIELD that hands a lock to this station. -/

namespace Sys2Proof.Machine

variable {s t u x : State} {g : Lock → Generation} {ls : List Lock} {l : Lock} {r : HoldRecord}

/-! ### Queue and lines after grants -/

theorem mem_of_kept {a b : List Entry} {e : Entry} (hc : e.contending = true ∨ isRequest e.content = true)
    (h : a.filter (fun e => e.contending || isRequest e.content) = b.filter fun e => e.contending || isRequest e.content) :
    e ∈ a ↔ e ∈ b := by
  have hp : (e.contending || isRequest e.content) = true := by simpa using hc
  have hmem : ∀ c : List Entry, e ∈ c.filter (fun e => e.contending || isRequest e.content) ↔ e ∈ c := fun c => by
    simp [List.mem_filter, hp]
  rw [← hmem a, h, hmem b]

theorem isRequest_of_slot {c : Content} {i : Tier} (h : ownerOf c = .slot i) : isRequest c = true := by
  simp [isRequest, h]

/-- The record of a lock that has been granted. -/
theorem State.GrantsTaken.record (h : s.GrantsTaken u g ls) (hl : l ∈ ls) (hr : recordFor s l = some r) :
    recordFor u l = some (s.grantTaken r (g l)) := by
  obtain ⟨hslot, hlock⟩ := recordFor_some.mp hr
  rw [recordFor_some, grantTaken_lock, h.slots, hslot]
  simp [hlock, hl]

theorem grantTaken_fell (hpin : s.pinFell r = true) (k : Generation) : (s.grantTaken r k).state = .yielding := by
  rw [State.grantTaken, if_pos hpin]

/-- The queue and the lines of a lock that has been granted, once the blocks have reacted (R108, R113, R132). -/
theorem State.GrantsTaken.follows (h : s.GrantsTaken u g ls) (hl : l ∈ ls) (hr : recordFor s l = some r) (hrt : t.rt = u.rt)
    (hsc : t.sc = s.sc)
    (hoq : t.oq.entries.filter (fun e => e.contending || isRequest e.content)
      = u.oq.entries.filter fun e => e.contending || isRequest e.content) : s.grantFollows t l r (g l) := by
  refine ⟨fun hpin e he hc ho => ?_, fun hpin => ⟨fun n hn => ?_, fun hmark => ?_⟩⟩
  · exact h.cleared l r hl hr hpin e ((mem_of_kept (.inr (isRequest_of_slot ho)) hoq).mp he) hc ho
  · have hbind : grantBinding t n = some l := by rw [← hn]; simp only [grantBinding, hsc]
    have hrecord := (recordFor_congr hrt l).trans (h.record hl hr)
    simp [grantActive, hbind, lockHeld, hrecord, grantTaken_fell hpin]
  · exact (mem_of_kept (.inr rfl) hoq).mpr (h.yielded l r hl hr hpin hmark)

/-- What one change of the fence set does to the guards (R64, R130). -/
theorem fenceGuards_get (a b : Bool × Bool) (s : State) :
    ((a.1 || a.2) = (b.1 || b.2) → (fenceGuards a b s).gl = s.gl) ∧
    ((b.1 || b.2) = true → (a.1 || a.2) = false → (fenceGuards a b s).gl = .stopped) ∧
    ((b.1 || b.2) = false → (a.1 || a.2) = true → ∀ n : GrantLine,
      ((∃ l, grantBinding s n = some l ∧ lockHeld s l = true) → (fenceGuards a b s).gl.guards[n] = s.freshGuard) ∧
      ((∀ l, grantBinding s n = some l → lockHeld s l = false) → (fenceGuards a b s).gl.guards[n] = s.gl.guards[n])) := by
  refine ⟨fun h => ?_, fun hb ha => ?_, fun hb ha n => ?_⟩
  · rw [fenceGuards, if_pos h]
  · rw [fenceGuards, if_neg (by simp [hb, ha]), if_pos hb]; rfl
  · rw [fenceGuards, if_neg (by simp [hb, ha]), if_neg (by simp [hb])]
    simp only [restartHeldGuards, setGuards, State.withGl_gl, tabulate_get]
    constructor
    · rintro ⟨l, hbind, hheld⟩
      simp only [hbind, hheld, if_true]
      rfl
    · intro hnone
      cases hbind : grantBinding s n with
      | none => rfl
      | some l => simp only [hnone l hbind, Bool.false_eq_true, if_false]

/-- The guards once grants have been taken and one change of the fence set has acted on them (R64, R113, R130). -/
theorem State.GrantsTaken.started (h : s.GrantsTaken u g ls)
    (hpin : ∀ l r, l ∈ ls → recordFor s l = some r → s.pinFell r = false) (hgl : x.gl = u.gl) (hsc : x.sc = s.sc)
    (hrt : t.rt = x.rt) (hm : s.sc.state = .member → t.gl = (fenceGuards (fenceSet s) (fenceSet t) x).gl)
    (hn : s.sc.state ≠ .member → t.gl = u.gl) :
    s.guardsStarted t fun l => l ∈ ls ∧ (recordFor s l).isSome = true := by
  obtain ⟨hsame, hstop, hstart⟩ := fenceGuards_get (fenceSet s) (fenceSet t) x
  have hguards := h.guards hpin
  have hbind : ∀ n, grantBinding x n = grantBinding s n := fun n => by simp only [grantBinding, hsc]
  have htime : guardTimeOf x = guardTimeOf s := by simp only [guardTimeOf, hsc]
  have hfresh : x.freshGuard = s.freshGuard := by simp only [State.freshGuard, htime]
  have hheld : ∀ l, lockHeld x l = lockHeld t l := fun l => by simp only [lockHeld, recordFor_congr hrt]
  have hkept : (s.sc.state ≠ .member ∨ fenced s = true) → u.gl = s.gl := by
    intro hno
    have hall : u.gl.guards = s.gl.guards := table_ext fun n => by
      rw [hguards n, if_neg]
      rintro ⟨hmem, hf, _⟩
      rcases hno with hno | hno
      · exact hno hmem
      · rw [hno] at hf; cases hf
    exact congrArg GrantUnit.mk hall
  refine ⟨fun hmem hs ht' n => ?_, fun hmem hor => ⟨fun hf => ?_, fun hf hs => (hm hmem).trans (hstop hf hs), fun hf hs n => ?_⟩, fun hmem => ?_⟩
  · have htgl : t.gl = u.gl := ((hm hmem).trans (hsame (hs.trans ht'.symm))).trans hgl
    rw [htgl, hguards n]
    constructor
    · rintro ⟨l, hl, hin, hsome⟩
      exact if_pos ⟨hmem, hs, l, hin, hl, hsome⟩
    · intro hnone
      refine if_neg ?_
      rintro ⟨_, _, l, hin, hl, hsome⟩
      exact hnone l hl ⟨hin, hsome⟩
  · have hfs : fenced s = true := by rcases hor with h | h; exacts [h, hf ▸ h]
    exact (((hm hmem).trans (hsame hf.symm)).trans hgl).trans (hkept (.inr hfs))
  · have hline := hstart hf hs n
    simp only [hbind, hheld, hfresh, hgl, hkept (.inr hs), ← hm hmem] at hline
    exact hline
  · exact (hn hmem).trans (hkept (.inl hmem))

/-! ### YIELD -/

theorem yieldEntry_stale {t : Station} {g : Generation} {why : Reason} {l : Lock} {e : LockEntry}
    (h : ¬ (e.holder = some t ∧ e.generation = g)) :
    yieldEntry t g why l e
      = (e, [{ name := .stale, lock := l, subject := t, generation := e.generation, reason := some why }]) := by
  rw [yieldEntry, if_neg h]

theorem yieldEntry_free {t : Station} {why : Reason} {l : Lock} {e : LockEntry} (h : e.holder = some t) (hw : e.waiters = []) :
    yieldEntry t e.generation why l e = ({ e with holder := none },
      [{ name := .yielded, lock := l, subject := t, generation := e.generation, reason := some why }]) := by
  rw [yieldEntry, if_pos ⟨h, rfl⟩]
  simp only [releaseEntry, hw]

theorem yieldEntry_handed {t w : Station} {rest : List Station} {why : Reason} {l : Lock} {e : LockEntry}
    (h : e.holder = some t) (hw : e.waiters = w :: rest) :
    yieldEntry t e.generation why l e = ({ holder := some w, generation := e.generation + 1, waiters := rest },
      [{ name := .yielded, lock := l, subject := t, generation := e.generation, reason := some why },
       outcomeOf .granted l w (e.generation + 1)]) := by
  rw [yieldEntry, if_pos ⟨h, rfl⟩]
  simp only [releaseEntry, hw]

/-- The outcomes of a YIELD name its sender and the head waiter. -/
theorem yieldEntry_subject {t : Station} {g : Generation} {why : Reason} {l : Lock} {e : LockEntry} {o : LockOutcome}
    (h : o ∈ (yieldEntry t g why l e).2) : o.subject = t ∨ e.waiters.head? = some o.subject := by
  by_cases hown : e.holder = some t ∧ e.generation = g
  · obtain ⟨hholder, rfl⟩ := hown
    cases hw : e.waiters with
    | nil =>
      rw [yieldEntry_free hholder hw] at h
      exact .inl (by rw [List.mem_singleton.mp h])
    | cons w rest =>
      rw [yieldEntry_handed hholder hw] at h
      rcases List.mem_cons.mp h with h | h
      · exact .inl (by rw [h])
      · exact .inr (by rw [List.mem_singleton.mp h]; rfl)
  · rw [yieldEntry_stale hown] at h
    exact .inl (by rw [List.mem_singleton.mp h])

/-- A grant of one lock to this station by another's YIELD, at a receiver (R108, R113, R120, R130). -/
theorem lockReport_granted {rd : Reading} {f : Frame} {k : Generation} {y : Replica} {outcomes : List LockOutcome}
    (h : s.receives rd f) (hseq : y.busSeq = s.au.replica.busSeq) (hr : recordFor s l = some r) (hawaits : s.awaits r)
    (hout : outcomes.filter (fun o => o.subject == s.station) = [outcomeOf .granted l s.station k]) :
    let t := handOn (lockReport f outcomes) (s.heardWith rd y)
    t.rt.slots = putAt s.rt.slots (tierOf l) (some (s.grantTaken r k)) ∧ s.grantFollows t l r k ∧
      (s.pinFell r = false → s.guardsStarted t fun j => j = l) ∧ t.ri = s.ri ∧
      t.hp = s.hp.noticed [lockNoticeOf r.grantKind l (some k) .none s] := by
  obtain ⟨_, hsc, _, _, hrt, hgl, hri, hhp, hpm, _, hoq, _⟩ :=
    handOn_plain (s.heardWith rd y) (lockReport_plain f outcomes) rfl rfl h.2.1 h.2.2
  have htaken := takeGrants_taken (s := s.heardWith rd y) (fun _ => k) [l] (List.nodup_singleton l)
    fun j x hj hx => by
      rw [List.mem_singleton] at hj
      subst hj
      cases hr.symm.trans hx
      exact hawaits
  have hgrant : takeOutcomes (lockReport f outcomes).outcomes (s.heardWith rd y) = takeGrant k r (s.heardWith rd y) := by
    have hfilter : (lockReport f outcomes).outcomes.filter (fun o => o.subject == (s.heardWith rd y).station)
        = [outcomeOf .granted l s.station k] := hout
    rw [takeOutcomes, hfilter]
    exact takeOutcome_granted_some (s := s.heardWith rd y) hr
  have hone : ([l].map fun j => outcomeOf .granted j (s.heardWith rd y).station k).foldl (fun t o => takeOutcome o t)
      (s.heardWith rd y) = takeGrant k r (s.heardWith rd y) := takeOutcome_granted_some (s := s.heardWith rd y) hr
  rw [hone] at htaken
  rw [hgrant] at hrt hgl hri hhp hoq
  obtain ⟨_, hlock⟩ := recordFor_some.mp hr
  obtain ⟨gslots, gri, ghp, _, _⟩ := takeGrant_taken (s := s.heardWith rd y) k hawaits
  rw [hlock] at gslots ghp
  have hguards : s.pinFell r = false → s.guardsStarted (handOn (lockReport f outcomes) (s.heardWith rd y)) fun j => j = l := by
    intro hpin
    have hstart := htaken.started (t := handOn (lockReport f outcomes) (s.heardWith rd y)) (x := takeGrant k r (s.heardWith rd y))
      (fun j x hj hx => by
        rw [List.mem_singleton] at hj
        subst hj
        cases hr.symm.trans hx
        exact hpin) rfl (by simp) hrt (fun hm => ?_) fun _ => hgl
    · have hentered : (fun j => j ∈ [l] ∧ (recordFor (s.heardWith rd y) j).isSome = true) = fun j => j = l := by
        funext j
        rw [List.mem_singleton, eq_iff_iff, and_iff_left_iff_imp]
        rintro rfl
        exact Option.isSome_iff_exists.mpr ⟨r, hr⟩
      rw [hentered] at hstart
      exact hstart
    · have hset : fenceSet (handOn (lockReport f outcomes) (s.heardWith rd y)) = fenceSet (s.heardWith rd y) := by
        have hpresent : present (s.heardWith rd y).sc.state = true := by rw [hm]; rfl
        simp only [fenceSet, hpm hpresent]
        rfl
      rw [hset, hgl, fenceGuards, if_pos rfl]
  refine ⟨hrt ▸ gslots, ?_, hguards, hri.trans gri, ?_⟩
  · exact htaken.follows (by simp) hr (by rw [hrt]) hsc hoq
  · rw [hhp, ghp]
    have hseq' : (s.heardWith rd y).au.replica.busSeq = s.au.replica.busSeq + 1 := by
      rw [← hseq]; rfl
    rw [hseq']
    rfl

/-- Settles O27: the outcomes of yieldEntry, and for a lock handed to this station the grant that its record takes. -/
theorem yieldFrameApplied : Obligations.YieldFrameApplied := by
  intro s rd f h hk hstep
  have hexec := lockFrame_applied h hstep (by simp [hk])
    (change := yieldEntry f.sender (generationField f.payload) (reasonField f.flags) (lockField f.payload))
    (fun same r => by simp only [applyKind, hk]; rfl)
  rw [hk] at hexec
  refine ⟨fun hm => ?_, fun hm => ?_⟩
  · rw [applyToLock_marked _ _ hm] at hexec
    exact ⟨_, hexec, (lockReport_followed h _ _).1, lockReport_sameLocks h _ (by simp), (lockReport_followed h _ _).2⟩
  · rw [applyToLock_clear _ _ hm] at hexec
    refine ⟨_, _, hexec, (lockReport_followed h _ _).1, (lockReport_followed h _ _).2, fun hother hhead => ?_, fun hno => ?_,
      fun hholder hgen => ⟨fun hw => ?_, fun w rest hw => ⟨?_, ?_⟩⟩⟩
    · refine lockReport_sameLocks h _ fun o ho => ?_
      rcases yieldEntry_subject ho with hs | hs
      · rwa [hs]
      · intro hme
        rw [hme] at hs
        exact hhead hs
    · rw [yieldEntry_stale hno]
    · rw [← hgen, yieldEntry_free hholder hw]
    · rw [← hgen, yieldEntry_handed hholder hw]
    · rintro r rfl hother hr hawaits
      refine lockReport_granted h rfl hr hawaits ?_
      rw [← hgen, yieldEntry_handed hholder hw]
      simp [hother, outcomeOf]

end Sys2Proof.Machine
end

section
/-! PROOFS. The removal of a station from the replica (R20, R43, R49) and the locks that it hands to this one. -/

namespace Sys2Proof.Machine

variable {s t u : State} {gone : Station}

/-! ### The replica without a station -/

/-- A station that neither holds nor waits leaves the entry as it is. -/
theorem removeFromEntry_other {l : Lock} {e : LockEntry} (h : e.holder ≠ some gone) :
    removeFromEntry gone l e = ({ e with waiters := e.waiters.erase gone }, []) := by
  rw [removeFromEntry, if_neg h]
  split
  · rfl
  next hw => rw [List.erase_of_not_mem hw]

theorem removeFromEntry_free {l : Lock} {e : LockEntry} (h : e.holder = some gone) (hw : e.waiters = []) :
    removeFromEntry gone l e = ({ e with holder := none }, []) := by
  rw [removeFromEntry, if_pos h]
  simp only [releaseEntry, hw]

theorem removeFromEntry_handed {l : Lock} {e : LockEntry} {w : Station} {rest : List Station} (h : e.holder = some gone)
    (hw : e.waiters = w :: rest) :
    removeFromEntry gone l e = ({ holder := some w, generation := e.generation + 1, waiters := rest },
      [outcomeOf .granted l w (e.generation + 1)]) := by
  rw [removeFromEntry, if_pos h]
  simp only [releaseEntry, hw]

theorem leaveRound_other {roster : StationSet} {x : TransferRecord} (h : ¬ (x.running = true ∧ x.feeder = gone)) :
    leaveRound gone roster x
      = ({ x with roundList := x.roundList.erase gone, pendingList := x.pendingList.erase gone }, []) := by
  unfold leaveRound
  dsimp only
  rw [if_neg]
  simpa using h

/-- The round that the station fed goes on under the lowest-numbered member (R49). -/
theorem leaveRound_restarted {roster : StationSet} {x : TransferRecord} {m : Station} (hrun : x.running = true)
    (hfeed : x.feeder = gone) (hm : lowestOf roster = some m) :
    leaveRound gone roster x
      = ({ running := true, feeder := m, round := x.round + 1, nextPage := 0, roundList := x.roundList.erase gone,
           pendingList := x.pendingList.erase gone }, [.roundRestarted]) := by
  simp [leaveRound, hrun, hfeed, hm]

/-- The round that the station fed ends where no member is left (R49). -/
theorem leaveRound_dissolved {roster : StationSet} {x : TransferRecord} (hrun : x.running = true) (hfeed : x.feeder = gone)
    (hm : lowestOf roster = none) :
    leaveRound gone roster x
      = ({ running := false, feeder := gone, round := x.round + 1, nextPage := 0, roundList := [], pendingList := [] },
         [.roundDissolved]) := by
  simp [leaveRound, hrun, hfeed, hm]

/-- The replica that the removal of a station leaves, its bus sequence advanced. -/
def Replica.left (marks : Vector Bool 64) (gone : Station) (r : Replica) : Replica :=
  { (removeMember marks gone r).1 with busSeq := r.busSeq + 1 }

theorem Replica.left_roster (marks : Vector Bool 64) (gone : Station) (r : Replica) :
    (r.left marks gone).roster = dropStation r.roster gone := rfl

theorem Replica.left_without (marks : Vector Bool 64) (gone : Station) (r : Replica) :
    Replica.without marks gone r (r.left marks gone) := by
  have htable : ∀ l : Lock, (r.left marks gone).table[l]
      = if marks[l] then r.table[l] else (removeFromEntry gone l r.table[l]).1 := removeFromTable_get marks gone r.table
  have htransfer : (r.left marks gone).transfer = (leaveRound gone (dropStation r.roster gone) r.transfer).1 := rfl
  refine ⟨rfl, fun m => ?_, fun l => ⟨fun hm => ?_, fun hm => ⟨fun hother => ?_, fun hown => ⟨fun hw => ?_, fun w rest hw => ?_⟩⟩⟩,
    fun hround => ?_, fun hrun hfeed => ⟨fun m hmem hlow => ?_, fun hnone => ?_⟩⟩
  · rw [Replica.left_roster, dropStation_get, Bool.and_comm]
    congr 1
    simp [eq_comm]
  · rw [htable, hm, if_pos rfl]
  · rw [htable, hm, removeFromEntry_other hother]; rfl
  · rw [htable, hm, removeFromEntry_free hown hw]; rfl
  · rw [htable, hm, removeFromEntry_handed hown hw]; rfl
  · rw [htransfer, leaveRound_other hround]
  · have hlowest : lowestOf (dropStation r.roster gone) = some m := lowestOf_some.mpr ⟨hmem, hlow⟩
    rw [htransfer, leaveRound_restarted hrun hfeed hlowest]
  · have hempty : lowestOf (dropStation r.roster gone) = none := lowestOf_none.mpr hnone
    rw [htransfer, leaveRound_dissolved hrun hfeed hempty]

/-! ### The locks handed over -/

/-- The locks that the removal of a station hands to this one, in ascending order. -/
def State.handedLocks (s : State) (gone : Station) : List Lock := (List.finRange 64).filter (s.handed gone)

theorem State.mem_handedLocks {l : Lock} : l ∈ s.handedLocks gone ↔ s.handed gone l = true := by
  simp [State.handedLocks]

theorem State.handedLocks_nodup (s : State) (gone : Station) : (s.handedLocks gone).Nodup :=
  (List.nodup_finRange 64).filter _

/-- A list in which the chosen elements give one outcome each, and the others none. -/
theorem flatMap_chosen {α β : Type} (p : α → Bool) (f : α → β) (l : List α) :
    (l.flatMap fun x => if p x then [f x] else []) = (l.filter p).map f := by
  induction l with
  | nil => rfl
  | cons x l ih => cases hp : p x <;> simp [List.flatMap_cons, hp, ih]

theorem removeFromEntry_grants (me : Station) (l : Lock) (e : LockEntry) :
    ((removeFromEntry gone l e).2.filter fun o => o.subject == me)
      = if e.holder == some gone && e.waiters.head? == some me then [outcomeOf .granted l me (e.generation + 1)] else [] := by
  by_cases hown : e.holder = some gone
  · cases hw : e.waiters with
    | nil => simp [removeFromEntry_free hown hw]
    | cons w rest =>
      rw [removeFromEntry_handed hown hw]
      by_cases hme : w = me
      · subst hme; simp [outcomeOf, hown]
      · simp [outcomeOf, hown, hme]
  · simp [removeFromEntry_other hown, hown]

/-- The removal's outcomes for this station are the grants of the locks handed to it. -/
theorem removal_grants (s : State) (gone : Station) :
    ((removeFromTable s.tc.uncollected gone s.au.replica.table).2.filter fun o => o.subject == s.station)
      = (s.handedLocks gone).map fun l => outcomeOf .granted l s.station (s.nextTenure l) := by
  rw [State.handedLocks, ← flatMap_chosen, removeFromTable, List.filter_flatMap]
  congr 1
  funext l
  cases hm : s.tc.uncollected[l]
  · simp only [State.handed, hm, Bool.false_eq_true, if_false, removeFromEntry_grants, Bool.not_false, Bool.true_and]
    rfl
  · simp [State.handed, hm]

/-! ### The report of a removal -/

/-- The report of an applied frame that removes a station. -/
def removalReport (own : Bool) (f : Frame) (gone : Station) (why : LeftCause) (outcomes : List LockOutcome)
    (events : List TransferEvent) : Report :=
  { plainReport own f .applied with outcomes := outcomes, removed := some (gone, why), events := events }

/-- The outcomes of the removal of a station at this one. -/
def State.removalOutcomes (s : State) (gone : Station) : List LockOutcome :=
  (removeFromTable s.tc.uncollected gone s.au.replica.table).2

/-- The transfer events of the removal of a station. -/
def Replica.removalEvents (gone : Station) (r : Replica) : List TransferEvent :=
  (leaveRound gone (dropStation r.roster gone) r.transfer).2

theorem evaluateQuorum_member (h : s.sc.state = .member) :
    (evaluateQuorum s).pm.quorum = decide (countOf s.au.replica.roster < quorumOf s) ∧
    (evaluateQuorum s).pm.attained = (s.pm.attained || !(evaluateQuorum s).pm.quorum) ∧
    (evaluateQuorum s).pm.stranding = (if (evaluateQuorum s).pm.quorum = true ∧ (evaluateQuorum s).pm.attained = true
      then some (s.pm.stranding.getD 0) else none) ∧
    (evaluateQuorum s).pm.contact = s.pm.contact ∧ (evaluateQuorum s).pm.ownContact = s.pm.ownContact ∧
    (evaluateQuorum s).pm.silence = s.pm.silence := by
  simp [evaluateQuorum, h]

theorem evaluateQuorum_other (h : s.sc.state ≠ .member) : evaluateQuorum s = s := by
  rw [evaluateQuorum, if_neg h]

theorem evaluateQuorum_timers (s : State) :
    (evaluateQuorum s).pm.contact = s.pm.contact ∧ (evaluateQuorum s).pm.ownContact = s.pm.ownContact ∧
    (evaluateQuorum s).pm.silence = s.pm.silence := by
  unfold evaluateQuorum
  split <;> simp

/-- The PEER_LEFT notice of a station with a bus sequence (R70, R197). -/
def peerLeftAt (gone : Station) (why : LeftCause) (q : BusSeq) : Notice :=
  { kind := .peerLeft, lock := none, station := some gone, generation := none, qualifier := .left why, busSeq := q }

/-- The presence state of a receiver after a member has left, before the fence is looked at (R57, R70, R71). -/
theorem memberRemoved_heard (k : Station) (why : LeftCause) (hne : gone ≠ s.station) :
    let v := memberRemoved gone why (memberHeard k s)
    v.pm.silence = putAt (s.pm.heard k).silence gone none ∧ v.pm.contact = s.pm.contact ∧
    v.pm.ownContact = s.pm.ownContact ∧ (s.sc.state ≠ .member → fenceSet v = fenceSet s) ∧
    (s.sc.state = .member → v.pm.quorum = decide (countOf s.au.replica.roster < quorumOf s) ∧
      v.pm.attained = (s.pm.attained || !v.pm.quorum) ∧
      v.pm.stranding = if v.pm.quorum = true ∧ v.pm.attained = true then some (s.pm.stranding.getD 0) else none) ∧
    v.hp = s.hp.noticed [peerLeftAt gone why s.au.replica.busSeq] := by
  have hheard : (memberHeard k s).pm = s.pm.heard k := by
    unfold memberHeard PresenceMonitor.heard
    split <;> simp
  have hstation : gone ≠ (memberHeard k s).station := by simpa using hne
  simp only [memberRemoved, if_neg hstation]
  generalize hw : stationNotice .peerLeft (some gone) (.left why)
    ((memberHeard k s).withPm { (memberHeard k s).pm with silence := putAt (memberHeard k s).pm.silence gone none }) = w
  have hpm : w.pm = { s.pm.heard k with silence := putAt (s.pm.heard k).silence gone none } := by
    rw [← hw]; simp [hheard]
  have hsc : w.sc = s.sc := by rw [← hw]; simp
  have hau : w.au = s.au := by rw [← hw]; simp
  have hhp : w.hp = s.hp.noticed [peerLeftAt gone why s.au.replica.busSeq] := by
    rw [← hw, stationNotice_hp]; simp [peerLeftAt]
  obtain ⟨hcontact, hown, hsilence⟩ := evaluateQuorum_timers w
  refine ⟨by rw [hsilence, hpm], by rw [hcontact, hpm]; rfl, by rw [hown, hpm]; rfl, fun hm => ?_, fun hm => ?_, ?_⟩
  · rw [evaluateQuorum_other (by rw [hsc]; exact hm)]
    simp only [fenceSet, hpm]
    rfl
  · obtain ⟨hq, ha, hst, _⟩ := evaluateQuorum_member (s := w) (by rw [hsc]; exact hm)
    refine ⟨?_, ?_, ?_⟩
    · have hquorum : quorumOf w = quorumOf s := by simp only [quorumOf, hsc]
      rw [hq, hau, hquorum]
    · rw [ha, hpm]; rfl
    · rw [hst, hpm]; rfl
  · simp [hhp]

/-- The station state of a member of the bus that is no longer collecting does not follow a departure of another station. -/
theorem stationReport_removal {f : Frame} {why : LeftCause} {outcomes : List LockOutcome} {events : List TransferEvent}
    (hp : present s.sc.state = true) : stationReport (removalReport false f gone why outcomes events) s = s := by
  have hround : roundBroken (removalReport false f gone why outcomes events) s = s := by
    unfold roundBroken
    split
    next hs => rw [hs] at hp; cases hp
    next hs => rw [hs] at hp; cases hp
    next => rfl
  have hdone : collectionDone s = s := collectionDone_same fun hs => by rw [hs] at hp; cases hp
  simp [stationReport, ownDepart, ownEnrol, removalReport, plainReport] at hround ⊢
  simp [hround, hdone]

/-- What the blocks of a station with presence duties do with the report that another has left (R57, R64, R70, R71). -/
theorem handOn_removal {f : Frame} {why : LeftCause} {outcomes : List LockOutcome} {events : List TransferEvent}
    (hp : present s.sc.state = true) (hne : gone ≠ s.station) :
    let rep := removalReport false f gone why outcomes events
    let t := handOn rep s
    let u := takeOutcomes outcomes s
    let v := memberRemoved gone why (memberHeard f.sender u)
    t.au = s.au ∧ t.sc = s.sc ∧ t.tc = s.tc ∧ t.lc = s.lc ∧ t.rt = u.rt ∧ t.ri = u.ri ∧ t.pm = v.pm ∧
    t.hp = v.hp.noticed (fenceReport (fenceSet s) (fenceSet t) s.au.replica.busSeq) ∧
    t.gl = (fenceGuards (fenceSet s) (fenceSet t) (fenceNotices (fenceSet s) (fenceSet t) v)).gl ∧
    t.oq.entries.filter (fun e => e.contending || isRequest e.content)
      = u.oq.entries.filter fun e => e.contending || isRequest e.content := by
  intro rep t u v
  have hu : u.sc = s.sc ∧ u.tc = s.tc ∧ u.au = s.au ∧ u.lc = s.lc ∧ u.pm = s.pm ∧ u.station = s.station := by
    simp [u]
  obtain ⟨usc, utc, uau, ulc, upm, ustation⟩ := hu
  have hvsc : v.sc = s.sc ∧ v.tc = s.tc ∧ v.au = s.au ∧ v.lc = s.lc ∧ v.rt = u.rt ∧ v.ri = u.ri ∧ v.oq = u.oq ∧ v.gl = u.gl := by
    simp [v, usc, utc, uau, ulc]
  obtain ⟨vsc, vtc, vau, vlc, vrt, vri, voq, vgl⟩ := hvsc
  have hreport : presenceReport rep u = fenceChanged (fenceSet s) (fenceSet v) v := by
    have hheard : fenceSet (memberHeard f.sender u) = fenceSet s := by
      unfold memberHeard
      split <;> simp [fenceSet, upm]
    have hus : fenceSet u = fenceSet s := by simp [fenceSet, upm]
    simp [presenceReport, senderReport, addedReport, removedReport, rep, removalReport, plainReport, hheard, hus,
      fenceChanged_same, v]
  have hreact : presenceReactions rep u = revalidateEvict (fenceChanged (fenceSet s) (fenceSet v) v) := by
    have houst : ousts rep u = false := by
      simp [ousts, rep, removalReport, ustation, hne]
    have hpu : present u.sc.state = true := by rw [usc]; exact hp
    simp [presenceReactions, hpu, hreport, houst]
    simp [rep, removalReport, plainReport]
  generalize hx : revalidateEvict (fenceChanged (fenceSet s) (fenceSet v) v) = x at hreact
  have hxf : x.sc = s.sc ∧ x.tc = s.tc ∧ x.au = s.au ∧ x.lc = s.lc ∧ x.rt = u.rt ∧ x.ri = u.ri ∧ x.pm = v.pm := by
    rw [← hx]; simp [vsc, vtc, vau, vlc, vrt, vri]
  obtain ⟨xsc, xtc, xau, xlc, xrt, xri, xpm⟩ := hxf
  have hxhp : x.hp = v.hp.noticed (fenceReport (fenceSet s) (fenceSet v) s.au.replica.busSeq) := by
    rw [← hx]; simp [fenceChanged, fenceNotices_hp, vau]
  have hxgl : x.gl = (fenceGuards (fenceSet s) (fenceSet v) (fenceNotices (fenceSet s) (fenceSet v) v)).gl := by
    rw [← hx]; simp [fenceChanged]
  have hxoq : x.oq.entries.filter (fun e => e.contending || isRequest e.content)
      = u.oq.entries.filter fun e => e.contending || isRequest e.content := by
    rw [← hx, revalidateEvict_kept]; simp [voq]
  have hpx : present x.sc.state = true := by rw [xsc]; exact hp
  have ht : t = revalidate (keepFeeding x) := by
    have hdepart : departHolds rep u = u := by simp [departHolds, rep, removalReport, plainReport]
    have hvote : voting (keepFeeding x).sc.state = true := by
      revert hpx
      simp only [keepFeeding_frame]
      cases x.sc.state <;> simp [present, voting]
    have hout : takeOutcomes rep.outcomes s = u := rfl
    have happlied : rep.disposition = .applied := rfl
    simp only [t, handOn, happlied, if_true, reactApplied, hout, hdepart, hreact, rep, stationReport_removal hpx, hvote]
  have htpm : t.pm = v.pm := by
    rw [ht, revalidate_pm_present _ (by simpa using hpx)]
    simp [xpm]
  have hset : fenceSet t = fenceSet v := by simp only [fenceSet, htpm]
  rw [hset]
  refine ⟨?_, ?_, ?_, ?_, ?_, ?_, htpm, ?_, ?_, ?_⟩
  · simp [ht, xau]
  · simp [ht, xsc]
  · simp [ht, xtc]
  · simp [ht, xlc]
  · simp [ht, xrt]
  · simp [ht, xri]
  · simp [ht, hxhp]
  · simp [ht, hxgl]
  · rw [ht, revalidate_kept, keepFeeding_kept]
    exact hxoq

/-! ### A departure heard -/

/-- The state in which the blocks of a receiver take the report that a station has left. -/
def State.heardLeft (s : State) (rd : Reading) (gone : Station) : State :=
  s.heardWith rd { s.au.replica.left s.tc.uncollected gone with busSeq := s.au.replica.busSeq }

theorem heardLeft_au (s : State) (rd : Reading) (gone : Station) :
    (s.heardLeft rd gone).au = { replica := s.au.replica.left s.tc.uncollected gone, streakCount := 0,
                                 streakSenders := noStations } := rfl

/-- The grants that a departure gives to this station, taken (R20, R113). -/
theorem heardLeft_taken (rd : Reading) (h : ∀ l r, s.handed gone l = true → recordFor s l = some r → s.awaits r) :
    (s.heardLeft rd gone).GrantsTaken (takeOutcomes (s.removalOutcomes gone) (s.heardLeft rd gone)) s.nextTenure
      (s.handedLocks gone) := by
  have htaken := takeGrants_taken (s := s.heardLeft rd gone) s.nextTenure (s.handedLocks gone) (s.handedLocks_nodup gone)
    fun l r hl hr => h l r (State.mem_handedLocks.mp hl) hr
  have hout : takeOutcomes (s.removalOutcomes gone) (s.heardLeft rd gone)
      = ((s.handedLocks gone).map fun l => outcomeOf .granted l s.station (s.nextTenure l)).foldl (fun t o => takeOutcome o t)
        (s.heardLeft rd gone) := by
    rw [← removal_grants]
    rfl
  rw [hout]
  exact htaken

/-- The notices of those grants, in ascending lock order. -/
theorem heardLeft_notices (s : State) (rd : Reading) (gone : Station) :
    (s.handedLocks gone).flatMap ((s.heardLeft rd gone).grantNoticeAt s.nextTenure) = s.grantNotices gone := by
  have hchosen : ∀ ls : List Lock, (ls.filter (s.handed gone)).flatMap ((s.heardLeft rd gone).grantNoticeAt s.nextTenure)
      = ls.flatMap fun l => if s.handed gone l then (s.heardLeft rd gone).grantNoticeAt s.nextTenure l else [] := by
    intro ls
    induction ls with
    | nil => rfl
    | cons l ls ih => cases hl : s.handed gone l <;> simp [List.flatMap_cons, hl, ih]
  rw [State.handedLocks, hchosen, State.grantNotices]
  congr 1
  funext l
  have hrecord : recordFor (s.heardLeft rd gone) l = recordFor s l := rfl
  rw [State.grantNoticeAt, hrecord]
  cases recordFor s l with
  | none => simp
  | some r => rfl

/-- What a station with presence duties keeps of a departure (R20, R57, R61, R66, R67, R70, R113). -/
theorem handOn_heardLeft {rd : Reading} {f : Frame} {why : LeftCause} {events : List TransferEvent}
    (hp : present s.sc.state = true) (hne : gone ≠ s.station) :
    let t := handOn (removalReport false f gone why (s.removalOutcomes gone) events) (s.heardLeft rd gone)
    t.au = (s.heardLeft rd gone).au ∧ t.sc = s.sc ∧ t.tc = s.tc ∧ t.lc = s.lc.heard rd.cells ∧
    t.pm.silence = putAt (s.pm.heard f.sender).silence gone none ∧ t.pm.contact = s.pm.contact ∧
    t.pm.ownContact = s.pm.ownContact ∧ (s.sc.state = .member → s.quorumFollows t) ∧
    ((∀ l r, s.handed gone l = true → recordFor s l = some r → s.awaits r) →
      s.handsOver t gone ∧
      t.hp = s.hp.noticed (s.grantNotices gone ++ peerLeftNotice gone why s
        :: fenceReport (fenceSet s) (fenceSet t) (s.au.replica.busSeq + 1))) := by
  intro t
  obtain ⟨tau, tsc, ttc, tlc, trt, tri, tpm, thp, tgl, toq⟩ :=
    handOn_removal (s := s.heardLeft rd gone) (f := f) (why := why) (outcomes := s.removalOutcomes gone) (events := events) hp hne
  generalize hu : takeOutcomes (s.removalOutcomes gone) (s.heardLeft rd gone) = u at trt tri tpm thp tgl toq
  have huf : u.sc = s.sc ∧ u.pm = s.pm ∧ u.station = s.station ∧ u.au = (s.heardLeft rd gone).au := by
    rw [← hu]; simp; exact ⟨rfl, rfl, rfl⟩
  obtain ⟨usc, upm, ustation, uau⟩ := huf
  obtain ⟨vsilence, vcontact, vown, vother, vmember, vhp⟩ := memberRemoved_heard (s := u) (gone := gone) f.sender why
    (by rw [ustation]; exact hne)
  generalize hv : memberRemoved gone why (memberHeard f.sender u) = v at tpm thp tgl vsilence vcontact vown vother vmember vhp
  refine ⟨tau, tsc, ttc, tlc, ?_, ?_, ?_, fun hm => ?_, fun hawaits => ⟨⟨fun i => ?_, ?_, fun l r hl hr => ?_, fun hpin => ?_⟩, ?_⟩⟩
  · rw [tpm, vsilence, upm]
  · rw [tpm, vcontact, upm]
  · rw [tpm, vown, upm]
  · obtain ⟨hq, ha, hst⟩ := vmember (by rw [usc]; exact hm)
    have hquorum : quorumOf u = quorumOf s := by simp only [quorumOf, usc]
    refine ⟨?_, ?_, ?_⟩
    · rw [tpm, tau, hq, hquorum, uau]
    · rw [tpm, ha, upm]
    · rw [tpm, hst, upm]
  · have htaken := (heardLeft_taken rd hawaits).slots i
    rw [hu] at htaken
    simp only [State.mem_handedLocks] at htaken
    rw [trt]
    exact htaken
  · have htaken := (heardLeft_taken rd hawaits).inputs
    rw [hu] at htaken
    exact tri.trans htaken
  · have htaken := heardLeft_taken rd hawaits
    rw [hu] at htaken
    exact htaken.follows (State.mem_handedLocks.mpr hl) hr trt tsc toq
  · have htaken := heardLeft_taken rd hawaits
    rw [hu] at htaken
    have hxgl : (fenceNotices (fenceSet s) (fenceSet t) v).gl = u.gl := by simp [← hv]
    have hstart := htaken.started (t := t) (x := fenceNotices (fenceSet s) (fenceSet t) v)
      (fun l r hl hr => hpin l r (State.mem_handedLocks.mp hl) hr) hxgl (by simp [← hv, usc]; rfl) (trt.trans (by simp [← hv]))
      (fun _ => tgl) fun hm => ?_
    · simp only [State.mem_handedLocks] at hstart
      exact hstart
    · have hset : fenceSet t = fenceSet s := by
        have huv : fenceSet t = fenceSet u := by
          rw [← vother (by rw [usc]; exact hm)]
          have htpm : t.pm = v.pm := tpm
          simp only [fenceSet, htpm]
        rw [huv]
        simp only [fenceSet, upm]
      rw [tgl, fenceGuards, if_pos (by rw [hset]; rfl)]
      exact hxgl
  · have htaken := (heardLeft_taken rd hawaits).notices
    rw [hu, heardLeft_notices] at htaken
    rw [thp, vhp, htaken, HostPort.noticed_append, HostPort.noticed_append, uau]
    rfl

end Sys2Proof.Machine
end

section
/-! PROOFS. A station's own DEPART in DEPARTING (R91, R93, R124): what each reaction does at the host port, and the state it ends in. -/

namespace Sys2Proof.Machine

variable {s t u : State}

/-! ### Notices and nothing else at the host port -/

/-- In the step to t notices are placed, and nothing else changes at the Host Port (R198). -/
def State.tells (s t : State) : Prop := ∃ l, t.hp = s.hp.noticed l

theorem State.tells_of_eq (h : t.hp = s.hp) : s.tells t := ⟨[], by rw [h, HostPort.noticed_nil]⟩

theorem State.tells_refl (s : State) : s.tells s := State.tells_of_eq rfl

theorem State.tells.trans (h1 : s.tells t) (h2 : t.tells u) : s.tells u := by
  obtain ⟨a, ha⟩ := h1
  obtain ⟨b, hb⟩ := h2
  exact ⟨a ++ b, by rw [hb, ha, HostPort.noticed_append]⟩

theorem State.tells.keep (h : s.tells t) (hp : u.hp = t.hp) : s.tells u := h.trans (State.tells_of_eq hp)

theorem lockNotice_tells (s : State) (k : NoticeKind) (l : Lock) (g : Option Generation) (q : Qualifier) :
    s.tells (lockNotice k l g q s) := ⟨_, lockNotice_hp s k l g q⟩

theorem stationNotice_tells (s : State) (k : NoticeKind) (m : Option Station) (q : Qualifier) :
    s.tells (stationNotice k m q s) := ⟨_, stationNotice_hp s k m q⟩

theorem withdrawRecord_tells (s : State) (r : HoldRecord) : s.tells (withdrawRecord r s) := by
  unfold withdrawRecord
  split
  · split
    · exact State.tells_of_eq (by simp)
    · exact (State.tells_of_eq (by simp)).trans (lockNotice_tells _ _ _ _ _)
  · exact State.tells_of_eq (by simp)
  · exact s.tells_refl

theorem pinClaim_tells (s : State) (p : Pin) (l : Lock) : s.tells (pinClaim p l s) := by
  unfold pinClaim
  split
  · exact State.tells_of_eq (by simp)
  · exact (lockNotice_tells s .pinRefused l none .none).keep (by simp)

theorem evaluatePin_tells (s : State) (p : Pin) : s.tells (evaluatePin p s) := by
  unfold evaluatePin
  split
  next => exact s.tells_refl
  next l _ =>
    split
    next =>
      split
      next =>
        split
        · exact pinClaim_tells s p l
        · exact s.tells_refl
      next r _ =>
        split
        · exact s.tells_refl
        · split
          · exact State.tells_of_eq (by simp)
          · exact withdrawRecord_tells s r
    next => exact s.tells_refl

theorem evaluateOrigin_tells (s : State) (o : Origin) : s.tells (evaluateOrigin o s) := by
  cases o with
  | host => exact s.tells_refl
  | req p => exact evaluatePin_tells s p

theorem enterHeld_tells (s : State) (k : NoticeKind) (m : Bool) (g : Generation) (r : HoldRecord) :
    s.tells (enterHeld k m g r s) :=
  ((State.tells_of_eq (by simp)).trans (lockNotice_tells _ _ _ _ _)).trans (evaluateOrigin_tells _ _)

theorem enterWaiting_tells (s : State) (g : Generation) (r : HoldRecord) : s.tells (enterWaiting g r s) :=
  ((State.tells_of_eq (by simp)).trans (lockNotice_tells _ _ _ _ _)).trans (evaluateOrigin_tells _ _)

theorem emptySlot_tells (n : Option (NoticeKind × Option Generation × Qualifier)) (r : HoldRecord) (h : u.hp = s.hp) :
    s.tells (emptySlot n r u) := by
  have hempty : s.tells (setSlot (tierOf r.lock) none (cancelRequest (tierOf r.lock) u)) := State.tells_of_eq (by simp [h])
  cases n with
  | none => exact hempty.trans (evaluateOrigin_tells _ _)
  | some x => exact (hempty.trans (lockNotice_tells _ _ _ _ _)).trans (evaluateOrigin_tells _ _)

theorem enterWithdrawing_tells (s : State) (r : HoldRecord) : s.tells (enterWithdrawing r s) := State.tells_of_eq (by simp)

theorem withdrawLeft_tells (s : State) (r : HoldRecord) : s.tells (withdrawLeft r s) := State.tells_of_eq (by simp)

theorem takeGrant_tells (s : State) (g : Generation) (r : HoldRecord) : s.tells (takeGrant g r s) := by
  unfold takeGrant
  split
  case h_5 => exact s.tells_refl
  all_goals exact enterHeld_tells s _ _ _ _

theorem takeOutcome_tells (s : State) (o : LockOutcome) : s.tells (takeOutcome o s) := by
  unfold takeOutcome
  split
  next => exact s.tells_refl
  next r _ =>
    (repeat' split) <;>
      simp [State.tells_refl, takeGrant_tells, enterWaiting_tells, enterWithdrawing_tells, enterHeld_tells, emptySlot_tells,
        withdrawLeft_tells]

theorem takeOutcomes_tells (s : State) (l : List LockOutcome) : s.tells (takeOutcomes l s) := by
  unfold takeOutcomes
  generalize l.filter (fun o => o.subject == s.station) = m
  induction m generalizing s with
  | nil => exact s.tells_refl
  | cons o m ih => exact (takeOutcome_tells s o).trans (ih _)

theorem revokeAll_hp (s : State) : (revokeAll s).hp = s.hp.noticed (revokedNotices s.au.replica.busSeq s.rt) :=
  revokeNotices_hp s

theorem fenceChanged_hp (s : State) (a b : Bool × Bool) :
    (fenceChanged a b s).hp = s.hp.noticed (fenceReport a b s.au.replica.busSeq) := by
  simp [fenceChanged, fenceNotices_hp]

theorem fenceChanged_tells (s : State) (a b : Bool × Bool) : s.tells (fenceChanged a b s) := ⟨_, fenceChanged_hp s a b⟩

theorem revalidateEvict_tells (s : State) : s.tells (revalidateEvict s) := State.tells_of_eq (by simp)

theorem memberRemoved_tells (s : State) (m : Station) (why : LeftCause) : s.tells (memberRemoved m why s) := by
  unfold memberRemoved
  split
  · exact State.tells_of_eq (by simp)
  · have hleft : s.tells (stationNotice .peerLeft (some m) (.left why)
        (s.withPm { s.pm with silence := putAt s.pm.silence m none })) :=
      (State.tells_of_eq rfl).trans (stationNotice_tells _ _ _ _)
    exact hleft.keep (by simp)

/-! ### The last reactions of a DEPARTING station -/

variable {f : Frame} {outcomes : List LockOutcome} {events : List TransferEvent} {gone : Station} {rep : Report}

/-- The report of an own DEPART, applied: its sender is removed, and nothing else is reported to the Station Controller. -/
def Report.departs (rep : Report) (gone : Station) : Prop :=
  rep.own = true ∧ rep.kind = .depart ∧ rep.disposition = .applied ∧ rep.added = none ∧
    rep.removed = some (gone, .departed) ∧ rep.enrol = none ∧ rep.desync = false ∧ rep.imageFailure = false

theorem removalReport_departs (hk : f.kind = .depart) : (removalReport true f gone .departed outcomes events).departs gone := by
  simp [Report.departs, removalReport, plainReport, hk]

/-- What the Presence Monitor does with the own DEPART: its steps 1 and 4, each with its change of the fence set (R53, R62, R71). -/
theorem Report.departs.presence (h : rep.departs gone) (hs : s.sc.state = .departing) :
    presenceReactions rep s = revalidateEvict (presenceReport rep s) ∧
    presenceReport rep s
      = (fenceChanged (fenceSet (ownFrameApplied .depart s)) (fenceSet (memberRemoved gone .departed (ownFrameApplied .depart s)))
          (fenceChanged (fenceSet s) (fenceSet (ownFrameApplied .depart s))
            (memberRemoved gone .departed (ownFrameApplied .depart s)))) := by
  obtain ⟨hown, hkind, _, hadded, hremoved, _⟩ := h
  have hp : present s.sc.state = true := by rw [hs]; rfl
  have houst : ousts rep s = false := by simp [ousts, hremoved]
  refine ⟨?_, ?_⟩
  · simp [presenceReactions, hp, houst, hkind]
  · simp [presenceReport, senderReport, addedReport, removedReport, hown, hkind, hadded, hremoved, fenceChanged_same]

/-- It leaves the Station Controller alone and places notices only. -/
theorem Report.departs.presence_calm (h : rep.departs gone) (hs : s.sc.state = .departing) :
    (presenceReactions rep s).sc = s.sc ∧ s.tells (presenceReactions rep s) := by
  obtain ⟨hreact, hreport⟩ := h.presence hs
  rw [hreact, hreport]
  refine ⟨by simp, ?_⟩
  have hremoved : s.tells (memberRemoved gone .departed (ownFrameApplied .depart s)) :=
    (State.tells_of_eq (by simp)).trans (memberRemoved_tells _ _ _)
  exact ((hremoved.trans (fenceChanged_tells _ _ _)).trans (fenceChanged_tells _ _ _)).trans (revalidateEvict_tells _)

/-- Of a station without a fence cause that removes itself it places none. -/
theorem Report.departs.presence_own (h : rep.departs gone) (hself : gone = s.station) (hs : s.sc.state = .departing)
    (hc : s.pm.contact = false) :
    (presenceReactions rep s).hp = s.hp := by
  obtain ⟨hreact, hreport⟩ := h.presence hs
  obtain ⟨_, hcontact, _, hquorum, _⟩ := ownFrameApplied_pm s .depart
  have hremoved : memberRemoved gone .departed (ownFrameApplied .depart s) = ownFrameApplied .depart s := by
    rw [memberRemoved, if_pos (by simp [hself]), evaluateQuorum_other (by simp [hs])]
  have hfence : fenceSet (ownFrameApplied .depart s) = fenceSet s := by simp only [fenceSet, hcontact, hquorum, hc]
  rw [hreact, hreport, hremoved, hfence, fenceChanged_same, fenceChanged_same]
  simp

/-- Feeder duty ends with presence duties, so a station that has left the bus stays off it (R98, R103). -/
theorem State.offBus.fed (h : s.offBus) (hp : present s.sc.state = false) : (keepFeeding s).offBus := by
  obtain ⟨hau, hrt, hpm, htc, hgl, hoq⟩ := h
  have hduty : feederDuty s = false := by simp [feederDuty, hp]
  refine ⟨by simp [hau], by simp [hrt], by simp [hpm], by simp [htc], by simp [hgl], fun e he => hoq e ?_⟩
  rw [keepFeeding, hduty, if_neg (by decide)] at he
  simp only [cancelQueued, State.withEntries, List.mem_filter] at he
  exact he.1

/-- A station that leaves the voting states leaves the bus (R30, R73, R103, R155). -/
theorem enterState_offBus {x : StationState} (hv : voting s.sc.state = true) (hx : voting x = false) : (enterState x s).offBus := by
  have hp : present x = false := by revert hx; cases x <;> simp [present, voting]
  have hm : x ≠ .member := by rintro rfl; cases hx
  refine ⟨?_, ?_, ?_, ?_, ?_, ?_⟩
  · simp [enterState_au, hx]
  · simp [enterState_rt, hp]
  · simp [enterState_pm, hm, hp]
  · simp [enterState_tc, hx]
  · simp [enterState_gl, hm]
  · rw [enterState_oq, if_pos ⟨hv, hx⟩]
    exact purgeAll_entries s

/-- The own DEPART applied in DEPARTING: the holds revoked, the presence state told, then READY with DEPARTED (R93, R124). -/
theorem Report.departs.handedOn (h : rep.departs gone) (hs : s.sc.state = .departing) :
    handOn rep s = keepFeeding (stationNotice .departed none .none
      (enterState .ready (presenceReactions rep (revokeAll (takeOutcomes rep.outcomes s))))) := by
  obtain ⟨hown, hkind, happlied, _, _, henrol, hdesync, himage⟩ := id h
  have hrevoke : departHolds rep (takeOutcomes rep.outcomes s) = revokeAll (takeOutcomes rep.outcomes s) := by
    rw [departHolds, if_pos ⟨hown, hkind, happlied, by simp [hs]⟩]
  generalize hw : revokeAll (takeOutcomes rep.outcomes s) = w at *
  have hws : w.sc.state = .departing := by rw [← hw]; simp [hs]
  obtain ⟨hpsc, _⟩ := h.presence_calm hws
  generalize hp : presenceReactions rep w = p at *
  have hready : (stationNotice .departed none .none (enterState .ready p)).sc.state = .ready := by simp [enterState_sc]; rfl
  have hdepart : ownDepart rep p = stationNotice .departed none .none (enterState .ready p) := by
    simp [ownDepart, hown, hkind, happlied, hpsc, hws]
  have hstation : stationReport rep p = stationNotice .departed none .none (enterState .ready p) := by
    rw [stationReport, hdepart]
    generalize stationNotice .departed none .none (enterState .ready p) = q at hready
    simp [ownEnrol, roundBroken, collectionDone, hready, hdesync, himage]
  simp only [handOn, happlied, if_true, reactApplied, hrevoke, hp, hstation]
  rw [if_neg]
  simp only [keepFeeding_frame, hready]
  decide

/-! ### How a DEPART reaches the blocks -/

theorem applyKind_depart (marks : Vector Bool 64) (same own : Bool) (r : Replica) (hk : f.kind = .depart) :
    applyKind marks same own f r = ((removeMember marks f.sender r).1,
      removalReport own f f.sender .departed (removeFromTable marks f.sender r.table).2 (r.removalEvents f.sender)) := by
  simp only [applyKind, hk]
  rfl

/-- The events of a removal say at most that the round broke (R49). -/
theorem removalEvents_cases (gone : Station) (r : Replica) :
    r.removalEvents gone = [] ∨ r.removalEvents gone = [.roundRestarted] ∨ r.removalEvents gone = [.roundDissolved] := by
  unfold Replica.removalEvents
  by_cases hround : r.transfer.running = true ∧ r.transfer.feeder = gone
  · obtain ⟨hrun, hfeed⟩ := hround
    cases hlow : lowestOf (dropStation r.roster gone) with
    | none => simp [leaveRound_dissolved hrun hfeed hlow]
    | some m => simp [leaveRound_restarted hrun hfeed hlow]
  · simp [leaveRound_other hround]

theorem removal_takesNone (own : Bool) (why : LeftCause) (r : Replica) :
    takesLockPage (removalReport own f gone why outcomes (r.removalEvents gone)) = false := by
  obtain h | h | h := removalEvents_cases gone r <;> simp [takesLockPage, removalReport, plainReport, h]

/-- The state in which the blocks of its sender take the report of an own DEPART, applied (R33, R152). -/
structure State.departHeard (s w : State) (gone : Station) : Prop where
  au : w.au = { s.au with replica := s.au.replica.left s.tc.uncollected gone }
  sc : w.sc = s.sc
  tc : w.tc = s.tc
  rt : w.rt = s.rt
  ri : w.ri = s.ri
  hp : w.hp = s.hp
  station : w.station = s.station
  contact : w.pm.contact = s.pm.contact

theorem ownDepart_applied {rd : Reading} (h : s.sends rd f) (hk : f.kind = .depart) (hv : voting s.sc.state = true)
    (hstep : s.inStep f) :
    ∃ w, s.departHeard w f.sender ∧ exec (.departFrame rd) s
      = .next (handOn (removalReport true f f.sender .departed (s.removalOutcomes f.sender)
          (s.au.replica.removalEvents f.sender)) w) := by
  obtain ⟨x, _, hexec⟩ := acceptOwn_applied s h hv (dispositionOf_inStep s (by simp [hk]) hstep) fun _ => by
    rw [applyKind_depart _ _ _ _ hk, removal_takesNone]
  rw [applyKind_depart _ _ _ _ hk, hk] at hexec
  refine ⟨_, ?_, hexec⟩
  obtain ⟨eau, esc, etc, ert, eri, ehp, _, estation, _, epm⟩ :=
    ownAccepted_effect .depart ((s.withLc x).withAu { s.au with replica := s.au.replica.left s.tc.uncollected f.sender })
  exact ⟨eau, esc, etc, ert, eri, ehp, estation, by rw [Replica.left] at epm; rw [epm]; rfl⟩

/-! ### The own DEPART of a DEPARTING station -/

/-- The locks of a station that removes itself are handed to others (R2, R20). -/
theorem removalOutcomes_own (h : s.tableLawful = true) : ∀ o ∈ s.removalOutcomes gone, o.subject ≠ gone := by
  intro o ho
  simp only [State.removalOutcomes, removeFromTable, List.mem_flatMap] at ho
  obtain ⟨l, _, ho⟩ := ho
  obtain ⟨hlaw, _⟩ := (State.tableLawful_iff s).mp h l
  obtain ⟨hholder, _⟩ := (LockEntry.lawful_iff _ _).mp hlaw
  split at ho
  · cases ho
  · by_cases hown : s.au.replica.table[l].holder = some gone
    · cases hw : s.au.replica.table[l].waiters with
      | nil =>
        rw [removeFromEntry_free hown hw] at ho
        cases ho
      | cons w rest =>
        rw [removeFromEntry_handed hown hw, List.mem_singleton] at ho
        have hwaits := (hholder gone hown).2
        rw [hw] at hwaits
        rintro rfl
        exact hwaits (by simp [ho, outcomeOf])
    · rw [removeFromEntry_other hown] at ho
      cases ho

/-- The blocks of a DEPARTING station that has departed (R93, R124). -/
theorem Report.departs.left (h : rep.departs gone) (hs : s.sc.state = .departing) :
    let p := presenceReactions rep (revokeAll (takeOutcomes rep.outcomes s))
    (handOn rep s).sc = s.sc.inState .ready ∧ (handOn rep s).offBus ∧
      (handOn rep s).hp = p.hp.noticed [stationNoticeOf .departed] ∧ s.tells p := by
  intro p
  have hrevoked : (revokeAll (takeOutcomes rep.outcomes s)).sc = s.sc := by simp
  obtain ⟨hpsc, htells⟩ := h.presence_calm (s := revokeAll (takeOutcomes rep.outcomes s)) (by rw [hrevoked]; exact hs)
  have hsc : p.sc = s.sc := hpsc.trans hrevoked
  have hoff : (enterState .ready p).offBus := enterState_offBus (by rw [hsc, hs]; rfl) rfl
  have hau : (enterState .ready p).au = .cleared := hoff.1
  have hnotice : (stationNotice .departed none .none (enterState .ready p)).offBus := by
    obtain ⟨hau, hrt, hpm, htc, hgl, hoq⟩ := hoff
    exact ⟨by simpa using hau, by simpa using hrt, by simpa using hpm, by simpa using htc, by simpa using hgl, by simpa using hoq⟩
  have hready : (stationNotice .departed none .none (enterState .ready p)).sc = s.sc.inState .ready := by
    simp [enterState_sc, hsc]
  rw [h.handedOn hs]
  refine ⟨?_, hnotice.fed (by rw [hready]; rfl), ?_, ?_⟩
  · simpa using hready
  · have hseq : (enterState .ready p).au.replica.busSeq = 0 := by rw [hau]; rfl
    have hnoticed : (stationNotice .departed none .none (enterState .ready p)).hp = p.hp.noticed [stationNoticeOf .departed] := by
      have hhp : (enterState .ready p).hp = p.hp := by simp
      rw [stationNotice_hp, hseq, hhp]
      rfl
    simpa using hnoticed
  · exact ((takeOutcomes_tells s _).trans ⟨_, revokeAll_hp _⟩).trans htells

theorem departed_own {rd : Reading} (h : s.sends rd f) (hk : f.kind = .depart) (hstep : s.inStep f)
    (hs : s.sc.state = .departing) :
    ∃ t, exec (.departFrame rd) s = .next t ∧ t.sc = s.sc.inState .ready ∧ t.offBus ∧
      s.lastNotice t (stationNoticeOf .departed) ∧
      (f.sender = s.station → s.tableLawful = true → s.stateLawful = true →
        t.hp = s.hp.noticed (revokedNotices (s.au.replica.busSeq + 1) s.rt ++ [stationNoticeOf .departed])) := by
  obtain ⟨w, hw, hexec⟩ := ownDepart_applied h hk (by rw [hs]; rfl) hstep
  have hrep := removalReport_departs (gone := f.sender) (outcomes := s.removalOutcomes f.sender)
    (events := s.au.replica.removalEvents f.sender) hk
  have hws : w.sc.state = .departing := by rw [hw.sc]; exact hs
  obtain ⟨hsc, hoff, hhp, l, hl⟩ := hrep.left hws
  refine ⟨_, hexec, by rw [hsc, hw.sc], hoff, ⟨l, by rw [hhp, hl, hw.hp, HostPort.noticed_append]⟩, fun hme htable hstate => ?_⟩
  have houtcomes : takeOutcomes (s.removalOutcomes f.sender) w = w :=
    takeOutcomes_none w fun o ho => by
      rw [hw.station, ← hme]
      exact removalOutcomes_own htable o ho
  have hcontact : s.pm.contact = false := by
    simp only [State.stateLawful, hs, Bool.and_eq_true, Bool.or_eq_true, Bool.not_eq_true'] at hstate
    obtain ⟨⟨⟨⟨⟨_, hmember | ⟨⟨⟨⟨hcontact, _⟩, _⟩, _⟩, _⟩⟩, _⟩, _⟩, _⟩, _⟩ := hstate
    · cases hmember
    · exact hcontact
  have hcalm := hrep.presence_own (s := revokeAll w) (by simp [hme, hw.station]) (by simpa using hws)
    (by simpa [hw.contact] using hcontact)
  have hseq : w.au.replica.busSeq = s.au.replica.busSeq + 1 := by rw [hw.au]; rfl
  have hrevoked : (revokeAll w).hp = s.hp.noticed (revokedNotices (s.au.replica.busSeq + 1) s.rt) := by
    rw [revokeAll_hp, hseq, hw.rt, hw.hp]
  have hout : (removalReport true f f.sender .departed (s.removalOutcomes f.sender) (s.au.replica.removalEvents f.sender)).outcomes
      = s.removalOutcomes f.sender := rfl
  rw [hhp, hout, houtcomes, hcalm, hrevoked, HostPort.noticed_append]

end Sys2Proof.Machine
end

section
/-! PROOFS. A station that leaves while this one joins (R49, R88, R90, R91): the reactions of a station with no hold list, and the
obligation on DEPART. -/

namespace Sys2Proof.Machine

variable {s t u : State} {f : Frame} {rep : Report} {gone : Station} {outcomes : List LockOutcome} {events : List TransferEvent}

/-! ### A voting station without presence duties -/

theorem takeOutcomes_empty (l : List LockOutcome) (h : s.rt = .empty) : takeOutcomes l s = s := by
  have hone : ∀ o, takeOutcome o s = s := fun o => by
    have hrecord : recordFor s o.lock = none := by simp [recordFor, h, RequestTracker.empty]
    simp [takeOutcome, hrecord]
  unfold takeOutcomes
  generalize l.filter (fun o => o.subject == s.station) = m
  induction m with
  | nil => rfl
  | cons o m ih => rw [List.foldl_cons, hone, ih]

/-- Of a report the Station Controller and the queue alone take note (R38, R52). -/
theorem handOn_joining (ha : rep.disposition = .applied) (hrt : s.rt = .empty) (hp : present s.sc.state = false) :
    handOn rep s = if voting (stationReport rep s).sc.state then revalidate (keepFeeding (stationReport rep s))
      else keepFeeding (stationReport rep s) := by
  have hs : s.sc.state ≠ .departing := by intro h; rw [h] at hp; cases hp
  have hholds : departHolds rep s = s := by simp [departHolds, hs]
  have hreact : presenceReactions rep s = s := by simp [presenceReactions, hp]
  simp only [handOn, ha, if_true, reactApplied, takeOutcomes_empty _ hrt, hholds, hreact, keepFeeding_frame]

/-- Where it leaves the voting states it leaves the bus, without a notice (R30, R73). -/
theorem handOn_parted {x : StationState} (ha : rep.disposition = .applied) (hrt : s.rt = .empty)
    (hp : present s.sc.state = false) (hx : voting x = false) (hst : stationReport rep s = enterState x u)
    (hv : voting u.sc.state = true) (hhp : u.hp = s.hp) (hri : u.ri = s.ri) :
    (handOn rep s).sc = u.sc.inState x ∧ (handOn rep s).offBus ∧ (handOn rep s).hp = s.hp ∧ (handOn rep s).ri = s.ri := by
  have hsc : (enterState x u).sc = u.sc.inState x := enterState_sc u x
  have hnot : voting (enterState x u).sc.state = false := by rw [hsc]; exact hx
  have hpx : present x = false := by revert hx; cases x <;> simp [present, voting]
  rw [handOn_joining ha hrt hp, hst, hnot, if_neg (by decide)]
  exact ⟨by simpa using hsc, (enterState_offBus hv hx).fed (by rw [hsc]; exact hpx), by simpa using hhp, by simpa using hri⟩

/-- Where it goes on voting the queue alone is looked after. -/
theorem handOn_stayed (ha : rep.disposition = .applied) (hrt : s.rt = .empty) (hp : present s.sc.state = false)
    (hst : stationReport rep s = u) (hv : voting u.sc.state = true) : handOn rep s = revalidate (keepFeeding u) := by
  rw [handOn_joining ha hrt hp, hst, if_pos hv]

/-- An entry that is due whatever the state, of an owner other than the feeder, stays in the queue. -/
theorem mem_revalidate_fed {e : Entry} (h : e ∈ s.oq.entries) (hpage : ownerOf e.content ≠ .page)
    (hdue : ∀ w : State, entryDue w e.content = true) :
    e ∈ (keepFeeding s).oq.entries ∧ e ∈ (revalidate (keepFeeding s)).oq.entries := by
  have hfed : e ∈ (keepFeeding s).oq.entries := by
    unfold keepFeeding
    (repeat' split) <;> simp [placeEntry, cancelQueued, h, hpage]
  have hplaced : ∀ w : State, e ∈ w.oq.entries → e ∈ (decideEviction w).oq.entries := by
    intro w hw
    unfold decideEviction
    (repeat' split) <;> simp [placeEntry, hw]
  have hstale : e ∈ (removeStale (keepFeeding s)).oq.entries := by simp [removeStale, cancelQueued, hfed, hdue]
  refine ⟨hfed, ?_⟩
  unfold revalidate
  dsimp only
  split
  · refine hplaced _ ?_
    split <;> exact hstale
  · split <;> exact hstale

/-! ### The Station Controller on a removal -/

theorem rosterEmpty_iff (s : State) : rosterEmpty s = true ↔ ∀ m : Station, s.au.replica.roster[m] = false := by
  rw [rosterEmpty, Option.isNone_iff_eq_none, lowestOf_none]

/-- After a station has left, the roster is empty if no other member was there. -/
theorem rosterEmpty_left (h : u.au.replica.roster = dropStation s.au.replica.roster gone) :
    rosterEmpty u = true ↔ ∀ m : Station, s.au.replica.roster[m] = true → m = gone := by
  rw [rosterEmpty_iff, h]
  refine forall_congr' fun m => ?_
  rw [dropStation_get]
  by_cases hg : gone = m
  · simp [hg]
  · have hg' : m ≠ gone := fun h => hg h.symm
    simp only [hg, hg', decide_false, Bool.not_false, Bool.true_and, imp_false, Bool.not_eq_true]

/-- The round that the station fed has broken. -/
theorem removalEvents_breaks (gone : Station) (r : Replica) :
    ((r.removalEvents gone).any fun e => e == .roundRestarted || e == .roundDissolved)
      = decide (r.transfer.running = true ∧ r.transfer.feeder = gone) := by
  unfold Replica.removalEvents
  by_cases hround : r.transfer.running = true ∧ r.transfer.feeder = gone
  · obtain ⟨hrun, hfeed⟩ := hround
    cases hlow : lowestOf (dropStation r.roster gone) with
    | none => simp [leaveRound_dissolved hrun hfeed hlow, hrun, hfeed]
    | some m => simp [leaveRound_restarted hrun hfeed hlow, hrun, hfeed]
  · rw [leaveRound_other hround, decide_eq_false hround]
    rfl

/-- The report of another station's removal, at a COLLECTING and at an ENROLLING station (R88, R90). -/
theorem stationReport_collecting {why : LeftCause} (hs : s.sc.state = .collecting) (hc : s.tc.collected ≤ 15) :
    stationReport (removalReport false f gone why outcomes events) s
      = if events.any (fun e => e == .roundRestarted || e == .roundDissolved) then enterState .waitRound s else s := by
  have hround : roundBroken (removalReport false f gone why outcomes events) s
      = if events.any (fun e => e == .roundRestarted || e == .roundDissolved) then enterState .waitRound s else s := by
    simp only [roundBroken, hs]
    rfl
  have hdone : collectionDone (roundBroken (removalReport false f gone why outcomes events) s)
      = roundBroken (removalReport false f gone why outcomes events) s := by
    rw [hround]
    split
    · refine collectionDone_same fun h => ?_
      rw [enterState_sc] at h
      cases h
    · exact collectionDone_same fun _ => by omega
  rw [← hround]
  simp only [stationReport, ownDepart, ownEnrol]
  exact hdone

theorem stationReport_enrolling {why : LeftCause} (hs : s.sc.state = .enrolling) :
    stationReport (removalReport false f gone why outcomes events) s = if rosterEmpty s then enterState .listen s else s := by
  have hround : roundBroken (removalReport false f gone why outcomes events) s
      = if rosterEmpty s then enterState .listen s else s := by
    simp only [roundBroken, hs]
    rfl
  have hdone : collectionDone (roundBroken (removalReport false f gone why outcomes events) s)
      = roundBroken (removalReport false f gone why outcomes events) s := by
    rw [hround]
    refine collectionDone_same fun h => ?_
    split at h
    · rw [enterState_sc] at h
      cases h
    · rw [hs] at h
      cases h
  rw [← hround]
  simp only [stationReport, ownDepart, ownEnrol]
  exact hdone

/-- The report of the own DEPART of a stale membership, applied or not (R91). -/
theorem stationReport_stale (hown : rep.own = true) (hk : rep.kind = .depart) (henrol : rep.enrol = none)
    (hdesync : rep.desync = false) (himage : rep.imageFailure = false) (hs : s.sc.state = .enrolling)
    (hm : s.sc.staleMark = true) :
    stationReport rep s = if rep.removed.isSome && rosterEmpty s then enterState .listen (staleDepartLeft s)
      else staleDepartLeft s := by
  have hdepart : ownDepart rep s = staleDepartLeft s := by simp [ownDepart, hown, hk, hs, hm]
  have hstate : (staleDepartLeft s).sc.state = .enrolling := by
    unfold staleDepartLeft
    dsimp only
    split <;> simp [hs]
  have hempty : rosterEmpty (staleDepartLeft s) = rosterEmpty s := by simp [rosterEmpty]
  have hround : roundBroken rep (staleDepartLeft s)
      = if rep.removed.isSome && rosterEmpty s then enterState .listen (staleDepartLeft s) else staleDepartLeft s := by
    simp only [roundBroken, hstate, hempty]
  have hdone : collectionDone (roundBroken rep (staleDepartLeft s)) = roundBroken rep (staleDepartLeft s) := by
    rw [hround]
    refine collectionDone_same fun h => ?_
    split at h
    · rw [enterState_sc] at h
      cases h
    · rw [hstate] at h
      cases h
  have henrolled : ownEnrol rep (staleDepartLeft s) = staleDepartLeft s := by simp [ownEnrol, henrol]
  simp only [stationReport, hdepart, henrolled, hdone, hdesync, himage, Bool.or_self, Bool.false_eq_true, if_false]
  exact hround

/-! ### A removal heard while joining -/

@[simp] theorem heardLeft_frame (s : State) (rd : Reading) (gone : Station) :
    (s.heardLeft rd gone).inReset = s.inReset ∧ (s.heardLeft rd gone).station = s.station ∧
    (s.heardLeft rd gone).bitRate = s.bitRate ∧ (s.heardLeft rd gone).lc = s.lc.heard rd.cells ∧
    (s.heardLeft rd gone).pm = s.pm ∧ (s.heardLeft rd gone).sc = s.sc ∧ (s.heardLeft rd gone).tc = s.tc ∧
    (s.heardLeft rd gone).rt = s.rt ∧ (s.heardLeft rd gone).ri = s.ri ∧ (s.heardLeft rd gone).hp = s.hp :=
  ⟨rfl, rfl, rfl, rfl, rfl, rfl, rfl, rfl, rfl, rfl⟩

/-- A station that goes on collecting or enrolling follows the removal (R49, R85). -/
theorem heardLeft_stayed {rd : Reading} {why : LeftCause} (hrt : s.rt = .empty) (hv : voting s.sc.state = true)
    (hp : present s.sc.state = false)
    (hst : stationReport (removalReport false f gone why outcomes events) (s.heardLeft rd gone) = s.heardLeft rd gone) :
    let t := handOn (removalReport false f gone why outcomes events) (s.heardLeft rd gone)
    s.followed t rd f ∧ t.au.streakCount = 0 ∧ t.au.streakSenders = noStations ∧
      Replica.without s.tc.uncollected gone s.au.replica t.au.replica ∧ t.rt = .empty ∧ t.hp = s.hp ∧ t.ri = s.ri := by
  intro t
  have ht : t = revalidate (keepFeeding (s.heardLeft rd gone)) := handOn_stayed rfl hrt hp hst hv
  have hau : t.au = (s.heardLeft rd gone).au := by rw [ht]; simp
  refine ⟨⟨?_, ?_, ?_, ?_, ?_, ?_, fun h => ?_, fun h => ?_⟩, by rw [hau]; rfl, by rw [hau]; rfl, ?_, ?_, ?_, ?_⟩
  case refine_7 => rw [hp] at h; cases h
  case refine_8 => rw [ht]; exact revalidate_pm_idle _ (by simpa using h)
  case refine_9 => rw [hau]; exact Replica.left_without _ _ _
  case refine_10 => rw [ht]; simpa using hrt
  all_goals
    simp only [ht, revalidate_frame, keepFeeding_frame]
    rfl

theorem heardLeft_joins {rd : Reading} (why : LeftCause) (h : s.receives rd f) (hrt : s.rt = .empty) :
    s.joinFollows (handOn (removalReport false f gone why (s.removalOutcomes gone) (s.au.replica.removalEvents gone))
      (s.heardLeft rd gone)) gone rd f := by
  obtain ⟨_, hv, hcollected⟩ := h
  have hevents := removalEvents_breaks gone s.au.replica
  have hempty := rosterEmpty_left (s := s) (u := s.heardLeft rd gone) (gone := gone) rfl
  refine ⟨fun hs hrun hfeed => ?_, fun hs hall => ?_, ?_⟩
  · have hst := stationReport_collecting (s := s.heardLeft rd gone) (f := f) (gone := gone) (why := why)
      (outcomes := s.removalOutcomes gone) (events := s.au.replica.removalEvents gone) hs (hcollected hs)
    rw [hevents, decide_eq_true ⟨hrun, hfeed⟩, if_pos rfl] at hst
    exact handOn_parted (s := s.heardLeft rd gone) (u := s.heardLeft rd gone) rfl hrt (by simp [hs]; rfl) rfl hst hv rfl rfl
  · have hst := stationReport_enrolling (s := s.heardLeft rd gone) (f := f) (gone := gone) (why := why)
      (outcomes := s.removalOutcomes gone) (events := s.au.replica.removalEvents gone) hs
    rw [if_pos (hempty.mpr hall)] at hst
    exact handOn_parted (s := s.heardLeft rd gone) (u := s.heardLeft rd gone) rfl hrt (by simp [hs]; rfl) rfl hst hv rfl rfl
  · rintro (⟨hs, hround⟩ | ⟨hs, m, hne, hm⟩)
    · refine heardLeft_stayed hrt hv (by rw [hs]; rfl) ?_
      rw [stationReport_collecting (s := s.heardLeft rd gone) hs (hcollected hs), hevents, decide_eq_false hround,
        if_neg (by decide)]
    · refine heardLeft_stayed hrt hv (by rw [hs]; rfl) ?_
      rw [stationReport_enrolling (s := s.heardLeft rd gone) hs, if_neg fun h => hne (hempty.mp h m hm)]

/-! ### The own DEPART of a stale membership -/

/-- What the end of a stale membership's DEPART does (R91). -/
theorem staleDepartLeft_effect (s : State) :
    (staleDepartLeft s).sc = { s.sc with staleMark := false } ∧
    (rosterEmpty s = false → newEntry .enrol ∈ (staleDepartLeft s).oq.entries) := by
  unfold staleDepartLeft
  dsimp only
  refine ⟨by split <;> simp, fun h => ?_⟩
  have hroster : rosterEmpty (s.withSc { s.sc with staleMark := false }) = false := h
  rw [hroster, if_neg (by decide)]
  simp [placeEntry]

theorem enrol_stays (h : newEntry .enrol ∈ s.oq.entries) :
    newEntry .enrol ∈ (keepFeeding s).oq.entries ∧ newEntry .enrol ∈ (revalidate (keepFeeding s)).oq.entries :=
  mem_revalidate_fed h (by simp [newEntry, ownerOf]) fun _ => rfl

/-- The own DEPART of a stale membership is applied (R91). -/
theorem staleDepart_applied {rd : Reading} (h : s.sends rd f) (hk : f.kind = .depart) (hstep : s.inStep f)
    (hs : s.sc.state = .enrolling) (hmark : s.sc.staleMark = true) (hrt : s.rt = .empty) :
    ∃ t, exec (.departFrame rd) s = .next t ∧ t.hp = s.hp ∧ t.ri = s.ri ∧ t.rt = .empty ∧
      (∀ m : Station, m ≠ f.sender → s.au.replica.roster[m] = true →
        t.sc = { s.sc with staleMark := false } ∧ newEntry .enrol ∈ t.oq.entries ∧
        Replica.without s.tc.uncollected f.sender s.au.replica t.au.replica) ∧
      ((∀ m : Station, s.au.replica.roster[m] = true → m = f.sender) → t.sc = s.sc.inState .listen ∧ t.offBus) := by
  obtain ⟨w, hw, hexec⟩ := ownDepart_applied h hk (by rw [hs]; rfl) hstep
  obtain ⟨hown, hkind, happlied, _, hremoved, henrol, hdesync, himage⟩ := removalReport_departs (gone := f.sender)
    (outcomes := s.removalOutcomes f.sender) (events := s.au.replica.removalEvents f.sender) hk
  generalize removalReport true f f.sender .departed (s.removalOutcomes f.sender) (s.au.replica.removalEvents f.sender) = rep at *
  have hws : w.sc.state = .enrolling := by rw [hw.sc, hs]
  have hwp : present w.sc.state = false := by rw [hws]; rfl
  have hwrt : w.rt = .empty := by rw [hw.rt, hrt]
  have hst := stationReport_stale hown hkind henrol hdesync himage hws (by rw [hw.sc, hmark])
  obtain ⟨hsc, hplaced⟩ := staleDepartLeft_effect w
  have hv : voting (staleDepartLeft w).sc.state = true := by rw [hsc, hws]; rfl
  have hempty := rosterEmpty_left (s := s) (u := w) (gone := f.sender) (by rw [hw.au]; rfl)
  have hremains : (rep.removed.isSome && rosterEmpty w) = rosterEmpty w := by rw [hremoved]; rfl
  rw [hremains] at hst
  refine ⟨_, hexec, ?_⟩
  by_cases hleft : ∀ m : Station, s.au.replica.roster[m] = true → m = f.sender
  · rw [if_pos (hempty.mpr hleft)] at hst
    obtain ⟨tsc, toff, thp, tri⟩ := handOn_parted (x := .listen) happlied hwrt hwp rfl hst hv (by simp) (by simp)
    refine ⟨thp.trans hw.hp, tri.trans hw.ri, toff.2.1, fun m hne hm => absurd (hleft m hm) hne, fun _ => ⟨?_, toff⟩⟩
    rw [tsc, hsc, hw.sc]
    rfl
  · have hnot : ¬ rosterEmpty w = true := fun h => hleft (hempty.mp h)
    rw [if_neg hnot] at hst
    have ht := handOn_stayed happlied hwrt hwp hst hv
    have henrolled := (enrol_stays (hplaced (by simpa using hnot))).2
    rw [ht]
    refine ⟨by simp [hw.hp], by simp [hw.ri], by simp [hwrt], fun m _ _ => ⟨by simp [hsc, hw.sc], henrolled, ?_⟩,
      fun h => absurd h hleft⟩
    have hau : (revalidate (keepFeeding (staleDepartLeft w))).au = w.au := by simp
    rw [hau, hw.au]
    exact Replica.left_without _ _ _

/-- The own DEPART of a stale membership is an outsider by membership (R34, R36, R91). -/
theorem staleDepart_outsider {rd : Reading} (h : s.sends rd f) (hk : f.kind = .depart) (hseq : f.busSeq = s.au.replica.busSeq)
    (hout : s.au.replica.roster[f.sender] = false) (hs : s.sc.state = .enrolling) (hmark : s.sc.staleMark = true) :
    ∃ t, exec (.departFrame rd) s = .next t ∧ t.hp = s.hp ∧ t.ri = s.ri ∧ t.rt = s.rt ∧ t.au = s.au ∧
      t.sc = { s.sc with staleMark := false } ∧
      (∀ m : Station, s.au.replica.roster[m] = true → newEntry .enrol ∈ t.oq.entries) := by
  obtain ⟨x, hx, _⟩ := acceptOwn_line s f rd
  have hdisposition : dispositionOf s.au.replica f = .outsiderMember := by simp [dispositionOf, hk, hseq, hout]
  obtain ⟨wau, wsc, _, wrt, wri, whp, _⟩ := ownAccepted_effect .depart (s.withLc x)
  generalize hw : ownAccepted .depart (s.withLc x) = w at *
  have hst := stationReport_stale (rep := plainReport true f .outsiderMember) (s := w) rfl hk rfl rfl rfl (by rw [wsc]; exact hs)
    (by rw [wsc]; exact hmark)
  obtain ⟨hsc, hplaced⟩ := staleDepartLeft_effect w
  have hexec : exec (.departFrame rd) s = .next (keepFeeding (staleDepartLeft w)) := by
    have hv : voting (s.withLc x).sc.state = true := by
      have hlc : (s.withLc x).sc.state = .enrolling := hs
      rw [hlc]; rfl
    have htake : takeFrame true f (s.withLc x) = (s.withLc x, plainReport true f .outsiderMember) := by
      have hd : dispositionOf (s.withLc x).au.replica f = .outsiderMember := hdisposition
      simp only [takeFrame, hd]
    have hcommand : exec (frameCommand f.kind rd) s = exec (.departFrame rd) s := by rw [hk]; rfl
    rw [← hcommand, exec_frameCommand, acceptedFrame_sends s h, hx, acceptFrame, if_pos hv, htake]
    have hother : handOn (plainReport true f .outsiderMember) w
        = keepFeeding (stationReport (plainReport true f .outsiderMember) w) := by
      simp [handOn, reactOther, plainReport, hk]
    simp only [if_true, hk, hw, hother, hst]
    rfl
  refine ⟨_, hexec, ?_, ?_, ?_, ?_, ?_, fun m hm => (enrol_stays (hplaced ?_)).1⟩
  · simp [whp]
  · simp [wri]
  · simp [wrt]
  · simp [wau]
  · simp [hsc, wsc]
  · rw [← Bool.not_eq_true, rosterEmpty_iff]
    intro hnone
    have hgone := hnone m
    rw [wau] at hgone
    rw [State.withLc_au, hm] at hgone
    cases hgone

/-! ### The obligation -/

/-- A removal restarts the sender's silence timer and then discards it (R57, R71). -/
theorem heard_silence (x : PresenceMonitor) (k : Station) : putAt (x.heard k).silence k none = putAt x.silence k none := by
  unfold PresenceMonitor.heard
  split
  · exact putAt_twice _ _ _ _
  · rfl

/-- A DEPART of another station, applied at a receiver. -/
theorem heardDepart_applied {rd : Reading} (h : s.receives rd f) (hk : f.kind = .depart) (hstep : s.inStep f) :
    exec (.departFrame rd) s = .next (handOn
      (removalReport false f f.sender .departed (s.removalOutcomes f.sender) (s.au.replica.removalEvents f.sender))
      (s.heardLeft rd f.sender)) := by
  have hexec := acceptFrame_applied s h (dispositionOf_inStep s (by simp [hk]) hstep) fun _ => by
    rw [applyKind_depart _ _ _ _ hk, removal_takesNone]
  rw [applyKind_depart _ _ _ _ hk, hk] at hexec
  exact hexec

/-- Settles O31: another's DEPART as a removal with cause DEPARTED; the own one as the last reactions of a DEPARTING station, or as
the end of a stale membership. -/
theorem departFrameApplied : Obligations.DepartFrameApplied := by
  intro s rd f hk hseq
  refine ⟨fun h hmember => ⟨_, heardDepart_applied h hk ⟨hseq, hmember⟩, fun hne hp => ?_,
      fun hrt => heardLeft_joins .departed h hrt⟩,
    fun h hs hmember => departed_own h hk ⟨hseq, hmember⟩ hs, fun h hs hmark hrt => ?_⟩
  · obtain ⟨tau, tsc, ttc, tlc, tsilence, tcontact, town, tquorum, tnotices⟩ :=
      handOn_heardLeft (rd := rd) (f := f) (why := .departed) (events := s.au.replica.removalEvents f.sender) hp hne
    refine ⟨by rw [tau]; rfl, by rw [tau]; rfl, ?_, tsc, ttc, tlc, tsilence.trans (heard_silence _ _), tcontact, town,
      tquorum, tnotices⟩
    rw [tau]
    exact Replica.left_without _ _ _
  · cases hmember : s.au.replica.roster[f.sender] with
    | true =>
      obtain ⟨t, hexec, thp, tri, trt, hstay, hleave⟩ := staleDepart_applied h hk ⟨hseq, hmember⟩ hs hmark hrt
      refine ⟨t, hexec, thp, tri, trt, fun m hne hm => ?_, fun _ => hleave⟩
      obtain ⟨tsc, tenrol, twithout⟩ := hstay m hne hm
      exact ⟨tsc, tenrol, fun _ => twithout, fun hno => by cases hno⟩
    | false =>
      obtain ⟨t, hexec, thp, tri, trt, tau, tsc, tenrol⟩ := staleDepart_outsider h hk hseq hmember hs hmark
      exact ⟨t, hexec, thp, tri, trt.trans hrt, fun m _ hm => ⟨tsc, tenrol m hm, (fun hno => by cases hno), fun _ => tau⟩,
        fun hno => by cases hno⟩

end Sys2Proof.Machine
end

section
/-! PROOFS. The law of the station states (R30, R39, R52, R61, R66, R67, R73, R74, R103): a change of state clears what the new state does
not keep, a MEMBER keeps everything, and every other operation leaves cleared what its station state has cleared. -/

namespace Sys2Proof.Machine

variable {s t u : State}

/-! ### The law, its clauses by name -/

/-- The clauses of State.stateLawful. -/
structure State.StateLaw (s : State) : Prop where
  replica : voting s.sc.state = false → s.au = .cleared
  presence : present s.sc.state = false → s.pm = .idle ∧ s.rt = .empty
  fence : s.sc.state ≠ .member →
    s.pm.contact = false ∧ s.pm.quorum = false ∧ s.pm.attained = false ∧ s.pm.stranding = none ∧ s.gl = .stopped
  founding : s.sc.state ≠ .listen → s.sc.foundingTimer = 0
  round : s.sc.state ≠ .waitRound → s.sc.state ≠ .collecting → s.sc.roundTimer = 0
  stale : s.sc.state ≠ .enrolling → s.sc.staleMark = false
  config : s.sc.config = none ↔ s.sc.state = .unconfigured

theorem State.stateLawful_iff (s : State) : s.stateLawful = true ↔ s.StateLaw := by
  have hconfig : (s.sc.config.isNone == (s.sc.state == .unconfigured)) = true ↔
      (s.sc.config = none ↔ s.sc.state = .unconfigured) := by
    rw [beq_iff_eq, Bool.eq_iff_iff, Option.isNone_iff_eq_none, beq_iff_eq]
  simp only [stateLawful, Bool.and_eq_true, hconfig]
  constructor
  · rintro ⟨⟨⟨⟨⟨⟨hreplica, hpresence⟩, hfence⟩, hfounding⟩, hround⟩, hstale⟩, hcfg⟩
    refine ⟨fun h => ?_, fun h => ?_, fun h => ?_, fun h => ?_, fun h h' => ?_, fun h => ?_, hcfg⟩
    · simpa [h] using hreplica
    · simpa [h] using hpresence
    · simpa [h, and_assoc] using hfence
    · simpa [h] using hfounding
    · simpa [h, h'] using hround
    · simpa [h] using hstale
  · rintro ⟨hreplica, hpresence, hfence, hfounding, hround, hstale, hcfg⟩
    refine ⟨⟨⟨⟨⟨⟨?_, ?_⟩, ?_⟩, ?_⟩, ?_⟩, ?_⟩, hcfg⟩
    · cases h : voting s.sc.state <;> simp [h, hreplica]
    · cases h : present s.sc.state <;> simp [h, hpresence]
    · by_cases h : s.sc.state = .member <;> simp [h, hfence]
    · by_cases h : s.sc.state = .listen <;> simp [h, hfounding]
    · by_cases h : s.sc.state = .waitRound
      · simp [h]
      · by_cases h' : s.sc.state = .collecting <;> simp [h, h', hround]
    · by_cases h : s.sc.state = .enrolling <;> simp [h, hstale]

/-- Every station state that votes or joins has a configuration record. -/
theorem State.StateLaw.configured (h : s.StateLaw) (hs : s.sc.state ≠ .unconfigured) : s.sc.config ≠ none :=
  fun hnone => hs (h.config.mp hnone)

/-! ### Changes that keep the law -/

theorem State.StateLaw.of_eq (h : s.StateLaw) (hsc : t.sc = s.sc) (hau : t.au = s.au) (hpm : t.pm = s.pm) (hrt : t.rt = s.rt)
    (hgl : t.gl = s.gl) : t.StateLaw := by
  obtain ⟨hreplica, hpresence, hfence, hfounding, hround, hstale, hcfg⟩ := h
  constructor <;> simp only [hsc, hau, hpm, hrt, hgl] <;> assumption

/-- A MEMBER keeps everything. -/
theorem State.StateLaw.at_member (h : s.StateLaw) (hs : s.sc.state = .member) (hsc : t.sc = s.sc) : t.StateLaw := by
  constructor
  · simp [hsc, hs, voting]
  · simp [hsc, hs, present]
  · simp [hsc, hs]
  · rw [hsc]; exact h.founding
  · rw [hsc]; exact h.round
  · rw [hsc]; exact h.stale
  · rw [hsc]; exact h.config

/-- The Station Controller's own fields change, with timers and marks that its state allows. -/
theorem State.StateLaw.withController (h : s.StateLaw) (hau : t.au = s.au) (hpm : t.pm = s.pm) (hrt : t.rt = s.rt)
    (hgl : t.gl = s.gl) (hstate : t.sc.state = s.sc.state) (hconfig : t.sc.config = s.sc.config)
    (hfounding : t.sc.state ≠ .listen → t.sc.foundingTimer = 0)
    (hround : t.sc.state ≠ .waitRound → t.sc.state ≠ .collecting → t.sc.roundTimer = 0)
    (hstale : t.sc.state ≠ .enrolling → t.sc.staleMark = false) : t.StateLaw where
  replica := by rw [hstate, hau]; exact h.replica
  presence := by rw [hstate, hpm, hrt]; exact h.presence
  fence := by rw [hstate, hpm, hgl]; exact h.fence
  founding := hfounding
  round := hround
  stale := hstale
  config := by rw [hconfig, hstate]; exact h.config

/-- The replica of a voting station is free. -/
theorem State.StateLaw.withReplica (h : s.StateLaw) (hv : voting s.sc.state = true) (hsc : t.sc = s.sc) (hpm : t.pm = s.pm)
    (hrt : t.rt = s.rt) (hgl : t.gl = s.gl) : t.StateLaw := by
  refine State.StateLaw.of_eq (s := s.withAu t.au) ?_ hsc rfl hpm hrt hgl
  obtain ⟨-, hpresence, hfence, hfounding, hround, hstale, hcfg⟩ := h
  exact ⟨by simp [hv], hpresence, hfence, hfounding, hround, hstale, hcfg⟩

/-- With presence duties the presence state and the hold list are free, but for the fence and the lines outside MEMBER. -/
theorem State.StateLaw.at_present (h : s.StateLaw) (hp : present s.sc.state = true) (hsc : t.sc = s.sc)
    (hfence : s.sc.state ≠ .member →
      t.pm.contact = false ∧ t.pm.quorum = false ∧ t.pm.attained = false ∧ t.pm.stranding = none ∧ t.gl = .stopped) :
    t.StateLaw where
  replica := by
    rw [hsc]
    intro hv
    exact absurd (show voting s.sc.state = true by revert hp; cases s.sc.state <;> simp [present, voting]) (by simp [hv])
  presence := by simp [hsc, hp]
  fence := by rw [hsc]; exact hfence
  founding := by rw [hsc]; exact h.founding
  round := by rw [hsc]; exact h.round
  stale := by rw [hsc]; exact h.stale
  config := by rw [hsc]; exact h.config

/-! ### The hold list under the law -/

/-- A change of the Request Tracker's: the hold list stays empty outside MEMBER where it was, and so do the lines stay as they are. -/
structure State.TracksHolds (s t : State) : Prop where
  sc : t.sc = s.sc
  au : t.au = s.au
  pm : t.pm = s.pm
  rt : s.sc.state ≠ .member → s.rt = .empty → t.rt = .empty
  gl : s.sc.state ≠ .member → t.gl = s.gl

theorem State.TracksHolds.refl (s : State) : s.TracksHolds s := ⟨rfl, rfl, rfl, fun _ h => h, fun _ => rfl⟩

theorem State.TracksHolds.trans (h1 : s.TracksHolds t) (h2 : t.TracksHolds u) : s.TracksHolds u where
  sc := h2.sc.trans h1.sc
  au := h2.au.trans h1.au
  pm := h2.pm.trans h1.pm
  rt hm he := h2.rt (h1.sc ▸ hm) (h1.rt hm he)
  gl hm := (h2.gl (h1.sc ▸ hm)).trans (h1.gl hm)

theorem State.TracksHolds.stateLaw (h : s.TracksHolds t) (hs : s.StateLaw) : t.StateLaw := by
  by_cases hm : s.sc.state = .member
  · exact hs.at_member hm h.sc
  have hgl := h.gl hm
  cases hp : present s.sc.state
  · exact hs.of_eq h.sc h.au h.pm ((h.rt hm (hs.presence hp).2).trans (hs.presence hp).2.symm) hgl
  · refine hs.at_present hp h.sc fun hm => ?_
    rw [h.pm, hgl]
    exact hs.fence hm

/-- In an empty hold list there is no record. -/
theorem recordFor_empty (h : s.rt = .empty) (l : Lock) : recordFor s l = none := by
  simp [recordFor, h, RequestTracker.empty]

theorem evaluatePin_other (p : Pin) (h : s.sc.state ≠ .member) : evaluatePin p s = s := by
  unfold evaluatePin
  (repeat' split) <;> first | rfl | contradiction

theorem evaluateOrigin_other (o : Origin) (h : s.sc.state ≠ .member) : evaluateOrigin o s = s := by
  cases o
  · rfl
  · exact evaluatePin_other _ h

theorem startGuards_other (l : Lock) (h : s.sc.state ≠ .member) : startGuards l s = s := by
  simp [startGuards, h]

theorem enterHeld_gl (k : NoticeKind) (m : Bool) (g : Generation) (r : HoldRecord) (h : s.sc.state ≠ .member) :
    (enterHeld k m g r s).gl = s.gl := by
  simp [enterHeld, evaluateOrigin_other, startGuards_other, h]

theorem emptySlot_gl (n : Option (NoticeKind × Option Generation × Qualifier)) (r : HoldRecord) (h : s.sc.state ≠ .member) :
    (emptySlot n r s).gl = s.gl := by
  unfold emptySlot
  cases n <;> simp [evaluateOrigin_other, h]

theorem enterWaiting_gl (g : Generation) (r : HoldRecord) (h : s.sc.state ≠ .member) : (enterWaiting g r s).gl = s.gl := by
  simp [enterWaiting, evaluateOrigin_other, h]

theorem takeGrant_gl (g : Generation) (r : HoldRecord) (h : s.sc.state ≠ .member) : (takeGrant g r s).gl = s.gl := by
  unfold takeGrant
  split <;> simp [enterHeld_gl, h]

theorem takeOutcome_gl (o : LockOutcome) (h : s.sc.state ≠ .member) : (takeOutcome o s).gl = s.gl := by
  unfold takeOutcome
  (repeat' split) <;> simp [takeGrant_gl, enterWaiting_gl, enterHeld_gl, emptySlot_gl, h]

theorem takeOutcome_tracks (o : LockOutcome) (s : State) : s.TracksHolds (takeOutcome o s) where
  sc := by simp
  au := by simp
  pm := by simp
  rt _ he := by simp [takeOutcome, recordFor_empty he, he]
  gl hm := takeOutcome_gl o hm

theorem takeOutcomes_tracks (l : List LockOutcome) (s : State) : s.TracksHolds (takeOutcomes l s) := by
  unfold takeOutcomes
  generalize l.filter (fun o => o.subject == s.station) = m
  induction m generalizing s with
  | nil => exact .refl s
  | cons o m ih => exact (takeOutcome_tracks o s).trans (ih _)

theorem evaluatePin_tracks (p : Pin) (s : State) : s.TracksHolds (evaluatePin p s) where
  sc := by simp
  au := by simp
  pm := by simp
  rt hm he := by rw [evaluatePin_other p hm, he]
  gl hm := by rw [evaluatePin_other p hm]

theorem requestReturned_tracks (b : Bool) (v : Nat) (c : Content) (s : State) : s.TracksHolds (requestReturned b v c s) where
  sc := by simp
  au := by simp
  pm := by simp
  rt _ he := by cases c <;> simp [requestReturned, recordFor_empty he, he, apply_ite State.rt]
  gl hm := by
    unfold requestReturned
    (repeat' split) <;> simp [emptySlot_gl, hm]

theorem dropRequest_tracks (o : Owner) (s : State) : s.TracksHolds (dropRequest o s) where
  sc := by simp
  au := by simp
  pm := by simp
  rt _ he := by
    unfold dropRequest
    cases o <;> simp [he, RequestTracker.empty]
  gl _ := by simp

/-! ### The Station Controller -/

/-- The new state has cleared what it does not keep. -/
theorem enterState_stateLaw {x : StationState} (hc : s.sc.config ≠ none) (hx : x ≠ .unconfigured) :
    (enterState x s).StateLaw := by
  have hsc := enterState_sc s x
  have hstate : (enterState x s).sc.state = x := by rw [hsc]; rfl
  constructor
  · intro hv
    rw [hstate] at hv
    simp [enterState_au, hv]
  · intro hp
    rw [hstate] at hp
    have hm : x ≠ .member := by rintro rfl; cases hp
    simp [enterState_pm, enterState_rt, hm, hp]
  · intro hm
    rw [hstate] at hm
    rw [enterState_pm, enterState_gl, if_neg hm, if_neg hm]
    split <;> simp [leaveMember, PresenceMonitor.idle]
  · simp [hsc, StationController.inState]
  · simp [hsc, StationController.inState]
  · simp [hsc, StationController.inState]
  · simp [hsc, StationController.inState, hc, hx]

/-- A change of state of a station that is configured, in the law. -/
theorem State.StateLaw.enters (h : s.StateLaw) (hs : s.sc.state ≠ .unconfigured) {x : StationState} (hx : x ≠ .unconfigured) :
    (enterState x s).StateLaw := enterState_stateLaw (h.configured hs) hx

theorem drop_stateLaw (c : DropCause) (h : s.StateLaw) : (drop c s).StateLaw := by
  cases hd : dropsIn c s.sc.state
  · rwa [drop, if_neg (by simp [hd])]
  have hs : s.sc.state ≠ .unconfigured := by
    intro hun
    have hv := dropsIn_voting c _ hd
    rw [hun] at hv
    cases hv
  obtain ⟨⟨hau, hrt, hpm, -, hgl, -⟩, -, hsc, -⟩ := drop_dropped s c hd
  obtain ⟨-, hvoting, hstate⟩ := dropState_idle s c
  have hun : dropState c s ≠ .unconfigured := by rcases hstate with hx | hx <;> simp [hx]
  refine (enterState_stateLaw (s := s) (h.configured hs) hun).withController ?_ ?_ ?_ ?_ ?_ ?_ ?_ ?_ ?_
  · simp [hau, enterState_au, hvoting]
  · rcases hstate with hx | hx <;> simp [hpm, enterState_pm, hx, present]
  · rcases hstate with hx | hx <;> simp [hrt, enterState_rt, hx, present]
  · rcases hstate with hx | hx <;> simp [hgl, enterState_gl, hx]
  all_goals simp [hsc, enterState_sc, StationController.inState]

theorem giveUpJoin_stateLaw (k : NoticeKind) (m : Option Station) (hc : s.sc.config ≠ none) :
    (giveUpJoin k m s).StateLaw :=
  (enterState_stateLaw (x := .ready) hc (by simp)).of_eq (by simp [giveUpJoin]) (by simp [giveUpJoin]) (by simp [giveUpJoin])
    (by simp [giveUpJoin]) (by simp [giveUpJoin])

theorem ask_stateLaw (hc : s.sc.config ≠ none) : (ask s).StateLaw :=
  (enterState_stateLaw (x := .asking) hc (by simp)).of_eq (by simp [ask]) (by simp [ask]) (by simp [ask]) (by simp [ask])
    (by simp [ask])

theorem otherFound_stateLaw (f : Frame) (hc : s.sc.config ≠ none) : (otherFound f s).StateLaw := by
  unfold otherFound
  split
  · exact ask_stateLaw hc
  · exact giveUpJoin_stateLaw _ _ hc

theorem enterMember_stateLaw (k : NoticeKind) (h : s.StateLaw) (hs : s.sc.state = .member) : (enterMember k s).StateLaw :=
  h.at_member hs (by simp)

theorem found_stateLaw (hc : s.sc.config ≠ none) : (found s).StateLaw := by
  have hlaw : (enterState .member s).StateLaw := enterState_stateLaw hc (by simp)
  have hstate : (enterState .member s).sc.state = .member := by rw [enterState_sc]; rfl
  exact enterMember_stateLaw _ (hlaw.at_member hstate rfl) hstate

theorem enterCollecting_stateLaw (q : BusSeq) (page : PageZero) (hc : s.sc.config ≠ none) :
    (enterCollecting q page s).StateLaw := by
  have hlaw : (enterState .collecting s).StateLaw := enterState_stateLaw hc (by simp)
  have hstate : (enterState .collecting s).sc = s.sc.inState .collecting := enterState_sc s _
  refine (State.StateLaw.withReplica (t := (enterState .collecting s).withAu (enterCollecting q page s).au) hlaw
    (by rw [hstate]; rfl) rfl rfl rfl rfl).withController rfl rfl rfl rfl rfl rfl ?_ ?_ ?_
  all_goals simp [enterCollecting, hstate, StationController.inState]

theorem observePageZero_stateLaw (f : Frame) (h : s.StateLaw) (hs : s.sc.state = .waitRound) :
    (observePageZero f s).StateLaw := by
  unfold observePageZero
  (repeat' split)
  · exact h
  · exact enterCollecting_stateLaw _ _ (h.configured (by simp [hs]))
  · exact h.withController rfl rfl rfl rfl rfl rfl h.founding (fun hn => absurd hs hn) h.stale
  · exact h

theorem observe_stateLaw (own : Bool) (f : Frame) (h : s.StateLaw) : (observe own f s).StateLaw := by
  unfold observe
  split
  next hs =>
    have hc := h.configured (by simp [hs])
    split
    · exact otherFound_stateLaw f hc
    · exact ask_stateLaw hc
  next hs =>
    have hc := h.configured (by simp [hs])
    (repeat' split)
    · exact found_stateLaw hc
    · exact otherFound_stateLaw f (by simpa using hc)
    · exact h
  next hs =>
    split
    · exact h.enters (by simp [hs]) (by simp)
    · exact h
  next hs =>
    split
    · exact observePageZero_stateLaw f h hs
    · exact h
  next => exact h

theorem joinAbandoned_stateLaw (c : Content) (h : s.StateLaw) : (joinAbandoned c s).StateLaw := by
  unfold joinAbandoned
  split
  next hs => exact giveUpJoin_stateLaw _ _ (h.configured (by simp [hs]))
  next hs => exact giveUpJoin_stateLaw _ _ (h.configured (by simp [hs]))
  next hs => exact giveUpJoin_stateLaw _ _ (h.configured (by simp [hs]))
  next => exact h

theorem roundOut_stateLaw (hc : s.sc.config ≠ none) : (roundOut s).StateLaw := by
  unfold roundOut
  dsimp only
  split
  · exact enterState_stateLaw hc (by simp)
  · exact giveUpJoin_stateLaw _ _ hc

/-! ### The reactions to a report -/

theorem ownDepart_stateLaw (rep : Report) (h : s.StateLaw) : (ownDepart rep s).StateLaw := by
  unfold ownDepart
  (repeat' split) <;> try exact h
  next hs _ =>
    exact (h.enters (x := .ready) (by simp [hs]) (by simp)).of_eq (by simp) (by simp) (by simp) (by simp) (by simp)
  next hs _ =>
    have hsc := (staleDepartLeft_effect s).1
    refine h.withController (by simp) (by simp) (by simp) (by simp) ?_ ?_ ?_ ?_ ?_
    · rw [hsc]
    · rw [hsc]
    · rw [hsc]; exact h.founding
    · rw [hsc]; exact h.round
    · simp [hsc]

theorem ownEnrol_stateLaw (rep : Report) (h : s.StateLaw) : (ownEnrol rep s).StateLaw := by
  unfold ownEnrol
  (repeat' split) <;> try exact h
  next henrol _ _ =>
    have hlaw : (enterState .member s).StateLaw := h.enters (by simp [henrol.2]) (by simp)
    exact enterMember_stateLaw _ hlaw (by rw [enterState_sc]; rfl)
  next henrol _ _ =>
    refine h.withController (by simp) (by simp) (by simp) (by simp) (by simp) (by simp) ?_ ?_ ?_
    · simpa using h.founding
    · simpa using h.round
    · simp [henrol.2]

theorem roundBroken_stateLaw (rep : Report) (h : s.StateLaw) : (roundBroken rep s).StateLaw := by
  unfold roundBroken
  (repeat' split) <;> try exact h
  next hs _ => exact h.enters (by simp [hs]) (by simp)
  next hs _ => exact h.enters (by simp [hs]) (by simp)

theorem collectionDone_stateLaw (h : s.StateLaw) : (collectionDone s).StateLaw := by
  unfold collectionDone
  split
  next hs =>
    exact (h.enters (x := .enrolling) (by simp [hs.1]) (by simp)).of_eq (by simp) (by simp) (by simp) (by simp) (by simp)
  next => exact h

theorem stationReport_stateLaw (rep : Report) (h : s.StateLaw) : (stationReport rep s).StateLaw := by
  have hdone := collectionDone_stateLaw (roundBroken_stateLaw rep (ownEnrol_stateLaw rep (ownDepart_stateLaw rep h)))
  unfold stationReport
  dsimp only
  split
  · exact drop_stateLaw _ hdone
  · exact hdone

/-- The presence state of a DEPARTING station has no fence and no stranding timer, and no report gives it one (R61, R67). -/
theorem presenceReport_fence (rep : Report) (h : s.StateLaw) (hm : s.sc.state ≠ .member) :
    (presenceReport rep s).pm.contact = false ∧ (presenceReport rep s).pm.quorum = false ∧
    (presenceReport rep s).pm.attained = false ∧ (presenceReport rep s).pm.stranding = none ∧
    (presenceReport rep s).gl = .stopped := by
  obtain ⟨hcontact, hquorum, hattained, hstranding, hgl⟩ := h.fence hm
  have hsender : (senderReport rep s).pm.contact = false ∧ (senderReport rep s).pm.quorum = false ∧
      (senderReport rep s).pm.attained = false ∧ (senderReport rep s).pm.stranding = none := by
    unfold senderReport
    split
    · obtain ⟨-, ocontact, -, oquorum, oattained, ostranding⟩ := ownFrameApplied_pm s rep.kind
      exact ⟨ocontact, oquorum.trans hquorum, oattained.trans hattained, ostranding.trans hstranding⟩
    · unfold memberHeard
      split <;> simp [hcontact, hquorum, hattained, hstranding]
  have hadded : ∀ w : State, w.sc = s.sc → (addedReport rep w).pm.contact = w.pm.contact ∧
      (addedReport rep w).pm.quorum = w.pm.quorum ∧ (addedReport rep w).pm.attained = w.pm.attained ∧
      (addedReport rep w).pm.stranding = w.pm.stranding := by
    intro w hw
    unfold addedReport memberAdded
    (repeat' split) <;> simp [evaluateQuorum_other, hw, hm]
  have hremoved : ∀ w : State, w.sc = s.sc → (removedReport rep w).pm.contact = w.pm.contact ∧
      (removedReport rep w).pm.quorum = w.pm.quorum ∧ (removedReport rep w).pm.attained = w.pm.attained ∧
      (removedReport rep w).pm.stranding = w.pm.stranding := by
    intro w hw
    unfold removedReport memberRemoved
    (repeat' split) <;> simp [evaluateQuorum_other, hw, hm]
  obtain ⟨scontact, squorum, sattained, sstranding⟩ := hsender
  obtain ⟨acontact, aquorum, aattained, astranding⟩ := hadded (senderReport rep s) (by simp)
  obtain ⟨rcontact, rquorum, rattained, rstranding⟩ := hremoved (addedReport rep (senderReport rep s)) (by simp)
  have hsame : presenceReport rep s = removedReport rep (addedReport rep (senderReport rep s)) := by
    simp [presenceReport, fenceSet, hcontact, hquorum, scontact, squorum, acontact, aquorum, rcontact, rquorum,
      fenceChanged_same]
  rw [hsame]
  refine ⟨?_, ?_, ?_, ?_, by simp [hgl]⟩
  · rw [rcontact, acontact, scontact]
  · rw [rquorum, aquorum, squorum]
  · rw [rattained, aattained, sattained]
  · rw [rstranding, astranding, sstranding]

theorem presenceReactions_stateLaw (rep : Report) (h : s.StateLaw) : (presenceReactions rep s).StateLaw := by
  unfold presenceReactions
  split
  next hp =>
    have hreport : (presenceReport rep s).StateLaw :=
      h.at_present hp (by simp) fun hm => presenceReport_fence rep h hm
    have hdrop : (if ousts rep s then drop .ouster (presenceReport rep s) else presenceReport rep s).StateLaw := by
      split
      · exact drop_stateLaw _ hreport
      · exact hreport
    dsimp only
    refine hdrop.of_eq ?_ ?_ ?_ ?_ ?_ <;> (split <;> simp)
  next => exact h

theorem departHolds_stateLaw (rep : Report) (h : s.StateLaw) : (departHolds rep s).StateLaw := by
  unfold departHolds
  split
  next hd =>
    refine h.at_present (by simp [hd.2.2.2, present]) (by simp) fun hm => ?_
    simpa using h.fence hm
  next => exact h

theorem keepFeeding_stateLaw (h : s.StateLaw) : (keepFeeding s).StateLaw :=
  h.of_eq (by simp) (by simp) (by simp) (by simp) (by simp)

theorem revalidate_stateLaw (h : s.StateLaw) : (revalidate s).StateLaw := by
  refine h.of_eq (by simp) (by simp) ?_ (by simp) (by simp)
  cases hp : present s.sc.state
  · have hidle := (h.presence hp).1
    rw [revalidate_pm_idle s hidle, hidle]
  · exact revalidate_pm_present s hp

theorem handOn_stateLaw (rep : Report) (h : s.StateLaw) : (handOn rep s).StateLaw := by
  unfold handOn
  split
  · have hreport := keepFeeding_stateLaw (stationReport_stateLaw rep (presenceReactions_stateLaw rep
      (departHolds_stateLaw rep ((takeOutcomes_tracks rep.outcomes s).stateLaw h))))
    unfold reactApplied
    dsimp only
    split
    · exact revalidate_stateLaw hreport
    · exact hreport
  · have hown : (if rep.own ∧ rep.kind = .evict then decideEviction s else s).StateLaw := by
      split
      · exact h.of_eq (by simp) (by simp) (by simp) (by simp) (by simp)
      · exact h
    exact keepFeeding_stateLaw (stationReport_stateLaw rep hown)

/-! ### Accepted frames -/

theorem installPage_sc (p : List Byte) (s : State) (rep : Report) :
    (installPage p s rep).1.sc = s.sc ∨ (installPage p s rep).1.sc = { s.sc with roundTimer := 0 } := by
  unfold installPage
  dsimp only
  split
  · exact .inr rfl
  · exact .inl rfl

/-- Of the Station Controller an application changes at most the round timer, in COLLECTING (R86). -/
theorem takeFrame_sc (own : Bool) (f : Frame) (s : State) :
    (takeFrame own f s).1.sc = s.sc ∨
      (s.sc.state = .collecting ∧ (takeFrame own f s).1.sc = { s.sc with roundTimer := 0 }) := by
  unfold takeFrame
  split
  · unfold applyFrame
    dsimp only
    split
    next hcol => exact (installPage_sc _ _ _).imp id fun hsc => ⟨hcol.1, hsc⟩
    next => exact .inl rfl
  · exact .inl rfl
  · exact .inl rfl

theorem takeFrame_stateLaw (own : Bool) (f : Frame) (h : s.StateLaw) (hv : voting s.sc.state = true) :
    (takeFrame own f s).1.StateLaw := by
  have hfree : (s.withAu (takeFrame own f s).1.au).StateLaw := h.withReplica hv rfl rfl rfl rfl
  rcases takeFrame_sc own f s with hsc | ⟨hcol, hsc⟩
  · exact hfree.of_eq (by simpa using hsc) rfl (by simp) (by simp) (by simp)
  · refine hfree.withController rfl (by simp) (by simp) (by simp) (by simp) (by simp) ?_ ?_ ?_
    · rw [hsc]; exact h.founding
    · simp [hsc]
    · rw [hsc]; exact h.stale

theorem ownAccepted_stateLaw (k : Kind) (h : s.StateLaw) : (ownAccepted k s).StateLaw := by
  obtain ⟨hau, hsc, -, hrt, -, -, hgl, -, -, hpm⟩ := ownAccepted_effect k s
  cases hp : present s.sc.state
  · refine h.of_eq hsc hau ?_ hrt hgl
    rw [hpm, (h.presence hp).1]
    split <;> rfl
  · refine h.at_present hp hsc fun hm => ?_
    rw [hpm, hgl]
    exact h.fence hm

theorem acceptFrame_stateLaw (own : Bool) (f : Frame) (h : s.StateLaw) : (acceptFrame own f s).StateLaw := by
  unfold acceptFrame
  split
  next hv =>
    have htaken := takeFrame_stateLaw own f h hv
    dsimp only
    refine handOn_stateLaw _ ?_
    split
    · exact ownAccepted_stateLaw _ htaken
    · exact htaken
  next =>
    refine observe_stateLaw own f ?_
    split
    · exact ownAccepted_stateLaw _ h
    · exact h

/-! ### The line -/

/-- How an attempt ends without acceptance, said once: w is the station with no frame being sent (R150, R151, R154). -/
inductive State.EndsAttempt (w : State) : State → Prop
  | none (h : contendingEntry w = none) : w.EndsAttempt w
  | removed : w.EndsAttempt (removeContending w)
  | dropped (o : Owner) : w.EndsAttempt (dropRequest o (removeContending w))
  | request (b : Bool) (n : Nat) (c : Content) : w.EndsAttempt (requestReturned b n c w)
  | abandoned (c : Content) : w.EndsAttempt (joinAbandoned c (removeContending w))
  | returned (n : Nat) : w.EndsAttempt (returnContending n w)

theorem returnAttempt_ends (v : Bool) (s : State) :
    (s.withLc { s.lc with sending := none }).EndsAttempt (returnAttempt v s) := by
  unfold returnAttempt
  dsimp only
  generalize s.withLc { s.lc with sending := none } = w
  split
  next h => exact .none h
  next e _ =>
    generalize (if (v && abandonable e.content) = true then e.voids + 1 else e.voids) = n
    (repeat' split)
    · exact .removed
    · exact .dropped _
    · exact .request _ _ _
    · exact .abandoned _
    · exact .returned _

theorem reportMute_stateLaw (b : Bool) (h : s.StateLaw) : (reportMute b s).StateLaw := by
  unfold reportMute
  split
  · exact drop_stateLaw _ h
  · exact h

theorem reportDuplicate_stateLaw (b : Bool) (h : s.StateLaw) : (reportDuplicate b s).StateLaw := by
  unfold reportDuplicate
  split
  · exact drop_stateLaw _ h
  · exact h

theorem returnAttempt_stateLaw (v : Bool) (h : s.StateLaw) : (returnAttempt v s).StateLaw := by
  have hclosed : (s.withLc { s.lc with sending := none }).StateLaw := h.of_eq rfl rfl rfl rfl rfl
  have hends := returnAttempt_ends v s
  generalize s.withLc { s.lc with sending := none } = w at hclosed hends
  generalize returnAttempt v s = t at hends ⊢
  have hremoved : (removeContending w).StateLaw := hclosed.of_eq rfl rfl rfl rfl rfl
  cases hends with
  | none => exact hclosed
  | removed => exact hremoved
  | dropped o => exact (dropRequest_tracks o _).stateLaw hremoved
  | request b n c => exact (requestReturned_tracks b n c w).stateLaw hclosed
  | abandoned c => exact joinAbandoned_stateLaw c hremoved
  | returned n => exact hclosed.of_eq rfl rfl rfl rfl rfl

theorem voidOwn_stateLaw (f : Frame) (rd : Reading) (h : s.StateLaw) : (voidOwn f rd s).StateLaw := by
  unfold voidOwn
  refine reportDuplicate_stateLaw _ (reportMute_stateLaw _ (returnAttempt_stateLaw _ (h.of_eq ?_ ?_ ?_ ?_ ?_))) <;> simp

theorem endReceived_stateLaw (x : Received) (rd : Reading) (h : s.StateLaw) : (endReceived x rd s).StateLaw := by
  unfold endReceived
  split
  · exact h
  · exact reportMute_stateLaw _ (h.of_eq (by simp) (by simp) (by simp) (by simp) (by simp))
  · exact h.of_eq (by simp) (by simp) (by simp) (by simp) (by simp)

theorem acceptedFrame_stateLaw (k : Kind) (rd : Reading) (h : s.StateLaw) : (acceptedFrame k rd s).StateLaw := by
  unfold acceptedFrame
  (repeat' split) <;> try exact h
  · exact acceptFrame_stateLaw _ _ (h.of_eq (by simp) (by simp) (by simp) (by simp) (by simp))
  · exact acceptFrame_stateLaw _ _ (endReceived_stateLaw _ _ h)
  · exact endReceived_stateLaw _ _ h

theorem startFrame_stateLaw (h : s.StateLaw) : (startFrame s).StateLaw := by
  unfold startFrame
  dsimp only
  split
  next hs => exact h.withController rfl rfl rfl rfl rfl rfl (fun _ => rfl) h.round h.stale
  next => exact h.of_eq rfl rfl rfl rfl rfl

/-! ### The host's commands -/

theorem takeTransaction_stateLaw {bytes : List Byte} {act : State → Answer}
    (hact : ∀ w : State, w.StateLaw → (act w).1.StateLaw) (h : s.StateLaw) : (takeTransaction bytes act s).StateLaw := by
  unfold takeTransaction
  split
  · have hport : (s.withHp (bytes.foldl receiveByte s.hp)).StateLaw := h.of_eq rfl rfl rfl rfl rfl
    exact (hact _ hport).of_eq rfl rfl rfl rfl rfl
  · exact h

theorem onLock_stateLaw {act : Lock → State → Answer} (lock : Byte) (hact : ∀ (l : Lock) (w : State), (act l w).1.sc = w.sc)
    (h : s.StateLaw) : (onLock lock act s).1.StateLaw := by
  unfold onLock
  (repeat' split) <;> try exact h
  next l _ hs _ => exact h.at_member (Decidable.not_not.mp hs) (hact l s)

theorem claimLock_sc (m : Mode) (limit : Byte) (l : Lock) (s : State) : (claimLock m limit l s).1.sc = s.sc := by
  unfold claimLock
  (repeat' split) <;> simp [answer]

theorem yieldLock_sc (l : Lock) (s : State) : (yieldLock l s).1.sc = s.sc := by
  unfold yieldLock
  (repeat' split) <;> simp [answer]

theorem withdrawLock_sc (l : Lock) (s : State) : (withdrawLock l s).1.sc = s.sc := by
  unfold withdrawLock
  (repeat' split) <;> simp [answer]

theorem renewLock_sc (l : Lock) (s : State) : (renewLock l s).1.sc = s.sc := by
  unfold renewLock
  (repeat' split) <;> simp [answer]

theorem answerClaim_stateLaw (lock mode limit : Byte) (h : s.StateLaw) : (answerClaim lock mode limit s).1.StateLaw := by
  unfold answerClaim
  split
  · exact h
  · exact onLock_stateLaw lock (claimLock_sc _ limit) h

theorem answerConfigure_stateLaw (record : Vector Byte 20) (h : s.StateLaw) : (answerConfigure record s).1.StateLaw := by
  unfold answerConfigure
  (repeat' split) <;> try exact h
  next hs _ _ _ =>
    refine ⟨fun _ => h.replica (by simp [hs, voting]), fun _ => h.presence (by simp [hs, present]),
      fun _ => h.fence (by simp [hs]), fun _ => h.founding (by simp [hs]), fun _ _ => h.round (by simp [hs]) (by simp [hs]),
      fun _ => h.stale (by simp [hs]), by simp [answer]⟩

theorem answerJoin_stateLaw (h : s.StateLaw) : (answerJoin s).1.StateLaw := by
  unfold answerJoin
  split
  next hs =>
    refine ⟨fun _ => h.replica (by simp [hs, voting]), fun _ => h.presence (by simp [hs, present]),
      fun _ => h.fence (by simp [hs]), fun _ => rfl, fun _ _ => h.round (by simp [hs]) (by simp [hs]),
      fun _ => h.stale (by simp [hs]), ?_⟩
    simpa [answer] using h.configured (by simp [hs])
  next => exact h

theorem answerLeave_stateLaw (h : s.StateLaw) : (answerLeave s).1.StateLaw := by
  unfold answerLeave
  (repeat' split) <;> try exact h
  next hs =>
    have hleft : (enterState .departing (purgeRequests (leaveHolds (stopAllGuards s)))).StateLaw := by
      refine enterState_stateLaw ?_ (by simp)
      simpa [purgeRequests] using h.configured (by simp [hs])
    exact hleft.of_eq (by simp [answer, leaveBus]) (by simp [answer, leaveBus]) (by simp [answer, leaveBus])
      (by simp [answer, leaveBus]) (by simp [answer, leaveBus])
  next hj =>
    refine enterState_stateLaw (s := purgeAll s) (x := .ready) ?_ (by simp)
    have hun : s.sc.state ≠ .unconfigured := by
      intro hun
      rw [hun] at hj
      cases hj
    simpa using h.configured hun

theorem softReset_stateLaw (s : State) : (softReset s).StateLaw := by
  have hcfg : (softReset s).sc
      = { StationController.reset with
          state := if s.sc.config.isSome then .ready else .unconfigured, config := s.sc.config } := by simp [softReset]
  constructor
  · simp [softReset]
  · simp [softReset]
  · simp [softReset, PresenceMonitor.idle]
  · simp [hcfg, StationController.reset]
  · simp [hcfg, StationController.reset]
  · simp [hcfg, StationController.reset]
  · rw [hcfg]
    cases s.sc.config <;> simp

/-! ### The timers -/

theorem execRoundTimeout_stateLaw (h : s.StateLaw) (hexec : execRoundTimeout s = .next t) : t.StateLaw := by
  unfold execRoundTimeout at hexec
  cases hexec
  split
  next hs => exact roundOut_stateLaw (h.configured (by simp [hs]))
  next hs => exact roundOut_stateLaw (h.configured (by simp [hs]))
  next => exact h

theorem contactDue_stateLaw (h : s.StateLaw) (hp : present s.sc.state = true) : (contactDue s).StateLaw := by
  refine h.at_present hp (by simp) fun hm => ?_
  rw [contactDue_frame s |>.2.2.2.2.2.2.2.2.1]
  unfold contactDue
  dsimp only
  split <;> simpa using h.fence hm

theorem promoteBeacon_stateLaw (h : s.StateLaw) (hage : s.pm.beaconAge.isSome = true) : (promoteBeacon s).StateLaw := by
  cases hp : present s.sc.state
  · rw [(h.presence hp).1] at hage
    cases hage
  · exact h.at_present hp rfl fun hm => h.fence hm

theorem execAbsenceLimit_stateLaw {m : Station} (h : s.StateLaw) (hexec : execAbsenceLimit m s = .next t) : t.StateLaw := by
  unfold execAbsenceLimit at hexec
  cases hexec
  split
  next time htime =>
    cases hp : present s.sc.state
    · rw [(h.presence hp).1] at htime
      simp [PresenceMonitor.idle] at htime
    · refine h.at_present hp (by simp) fun hm => ?_
      simpa using h.fence hm
  next => exact h

theorem execHoldExpiry_stateLaw {i : Tier} (h : s.StateLaw) (hexec : execHoldExpiry i s = .next t) : t.StateLaw := by
  unfold execHoldExpiry at hexec
  cases hexec
  (repeat' split) <;> try exact h
  next hs => exact h.at_member hs.1 (by simp)

theorem execGuardElapsed_stateLaw {n : GrantLine} (h : s.StateLaw) (hexec : execGuardElapsed n s = .next t) :
    t.StateLaw := by
  unfold execGuardElapsed at hexec
  cases hexec
  split
  next hrun =>
    refine h.at_member (Decidable.byContradiction fun hm => ?_) rfl
    rw [(h.fence hm).2.2.2.2] at hrun
    simp [GrantUnit.stopped] at hrun
  next => exact h

/-- A millisecond advances running timers only, and outside their states none runs (R53, R56, R57, R67, R77, R83, R130). -/
theorem tick_stateLaw (h : s.StateLaw) : (tick s).StateLaw where
  replica := h.replica
  presence hp := by
    have hp' : present s.sc.state = false := hp
    obtain ⟨hpm, hrt⟩ := h.presence hp'
    simp [tick, hpm, hrt, hp', PresenceMonitor.idle, RequestTracker.empty]
  fence hm := by
    obtain ⟨hcontact, hquorum, hattained, hstranding, hgl⟩ := h.fence hm
    simp [tick, hcontact, hquorum, hattained, hstranding, hgl, GrantUnit.stopped, tickGuard]
  founding hs := by
    have hs' : s.sc.state ≠ .listen := hs
    simp [tick, hs', h.founding hs']
  round hw hc := by
    have hw' : s.sc.state ≠ .waitRound := hw
    have hc' : s.sc.state ≠ .collecting := hc
    simp [tick, hw', hc', h.round hw' hc']
  stale := h.stale
  config := h.config

theorem passTime_stateLaw (h : s.StateLaw) : (passTime s).StateLaw := by
  unfold passTime
  split
  · exact h
  · exact (tick_stateLaw h).of_eq rfl rfl rfl rfl rfl

/-! ### Every command -/

theorem exec_stateLaw {i : Instr} (h : s.StateLaw) (hexec : exec i s = .next t) : t.StateLaw := by
  cases i with
  | hardReset =>
    cases hexec
    exact ⟨fun _ => rfl, fun _ => ⟨rfl, rfl⟩, fun _ => ⟨rfl, rfl, rfl, rfl, rfl⟩, fun _ => rfl, fun _ _ => rfl, fun _ => rfl,
      ⟨fun _ => rfl, fun _ => rfl⟩⟩
  | hardResetEnd straps rate =>
    cases hexec
    split
    · exact h.of_eq rfl rfl rfl rfl rfl
    · exact h
  | configureCommand record => cases hexec; exact takeTransaction_stateLaw (fun _ => answerConfigure_stateLaw record) h
  | joinCommand => cases hexec; exact takeTransaction_stateLaw (fun _ => answerJoin_stateLaw) h
  | leaveCommand => cases hexec; exact takeTransaction_stateLaw (fun _ => answerLeave_stateLaw) h
  | resetCommand => cases hexec; exact takeTransaction_stateLaw (fun w _ => softReset_stateLaw w) h
  | claimCommand lock mode limit =>
    cases hexec; exact takeTransaction_stateLaw (fun _ => answerClaim_stateLaw lock mode limit) h
  | yieldCommand lock => cases hexec; exact takeTransaction_stateLaw (fun _ => onLock_stateLaw lock yieldLock_sc) h
  | withdrawCommand lock => cases hexec; exact takeTransaction_stateLaw (fun _ => onLock_stateLaw lock withdrawLock_sc) h
  | renewCommand lock => cases hexec; exact takeTransaction_stateLaw (fun _ => onLock_stateLaw lock renewLock_sc) h
  | readLockCommand lock =>
    cases hexec
    refine takeTransaction_stateLaw (fun w hw => ?_) h
    unfold answerReadLock
    split <;> exact hw
  | readRosterCommand => cases hexec; exact takeTransaction_stateLaw (fun _ hw => hw) h
  | readHoldsCommand => cases hexec; exact takeTransaction_stateLaw (fun _ hw => hw) h
  | readNoticeCommand =>
    cases hexec
    refine takeTransaction_stateLaw (fun w hw => ?_) h
    unfold answerReadNotice
    split <;> exact hw
  | readStatusCommand =>
    cases hexec; exact takeTransaction_stateLaw (fun _ hw => hw.of_eq rfl rfl rfl rfl rfl) h
  | unknownCommand code =>
    cases hexec
    split
    · exact takeTransaction_stateLaw (fun _ hw => hw) h
    · exact h
  | transactionTruncated => cases hexec; split <;> exact h.of_eq rfl rfl rfl rfl rfl
  | readNoticeCompletion => cases hexec; split <;> exact h.of_eq rfl rfl rfl rfl rfl
  | readStatusCompletion => cases hexec; split <;> exact h.of_eq rfl rfl rfl rfl rfl
  | busOpportunity =>
    cases hexec
    split
    · exact (revalidate_stateLaw h).of_eq (by simp) (by simp) (by simp) (by simp) (by simp)
    · exact h
  | startBitConfirmed =>
    cases hexec
    split
    · exact startFrame_stateLaw h
    · exact h
  | unconfirmedStartBit =>
    cases hexec
    split
    · exact reportMute_stateLaw _ (returnAttempt_stateLaw _ (h.of_eq (by simp) (by simp) (by simp) (by simp) (by simp)))
    · exact h
  | arbitrationLost =>
    cases hexec
    split
    · exact returnAttempt_stateLaw _ (h.of_eq (by simp) (by simp) (by simp) (by simp) (by simp))
    · exact h
  | frameLost cells =>
    cases hexec
    (repeat' split) <;> try exact h
    exact reportMute_stateLaw _ (h.of_eq (by simp) (by simp) (by simp) (by simp) (by simp))
  | endFault => cases hexec; split <;> exact h.of_eq rfl rfl rfl rfl rfl
  | frameVoided rd =>
    cases hexec
    (repeat' split) <;> try exact h
    · exact voidOwn_stateLaw _ rd h
    · exact endReceived_stateLaw _ rd h
  | claimFrame rd => cases hexec; exact acceptedFrame_stateLaw _ rd h
  | yieldFrame rd => cases hexec; exact acceptedFrame_stateLaw _ rd h
  | withdrawFrame rd => cases hexec; exact acceptedFrame_stateLaw _ rd h
  | evictFrame rd => cases hexec; exact acceptedFrame_stateLaw _ rd h
  | departFrame rd => cases hexec; exact acceptedFrame_stateLaw _ rd h
  | beaconFrame rd => cases hexec; exact acceptedFrame_stateLaw _ rd h
  | syncAskFrame rd => cases hexec; exact acceptedFrame_stateLaw _ rd h
  | pageFrame rd => cases hexec; exact acceptedFrame_stateLaw _ rd h
  | enrolFrame rd => cases hexec; exact acceptedFrame_stateLaw _ rd h
  | foundFrame rd => cases hexec; exact acceptedFrame_stateLaw _ rd h
  | ownContactReachesP =>
    cases hexec
    split
    next hp => exact contactDue_stateLaw h hp
    next => exact h
  | beaconPromoted =>
    cases hexec
    split
    next hage => exact promoteBeacon_stateLaw h (by simp only [Bool.and_eq_true] at hage; exact hage.2)
    next => exact h
  | fenceLimit =>
    cases hexec
    split
    next hm => exact h.at_member hm (by simp)
    next => exact h
  | absenceLimit m => exact execAbsenceLimit_stateLaw h hexec
  | stranding =>
    cases hexec
    split
    · exact drop_stateLaw _ h
    · exact h
  | foundingWait =>
    cases hexec
    split
    next hs =>
      exact (h.enters (x := .founding) (by simp [hs.1]) (by simp)).of_eq (by simp) (by simp) (by simp) (by simp) (by simp)
    next => exact h
  | roundTimeout => exact execRoundTimeout_stateLaw h hexec
  | holdExpiry i => exact execHoldExpiry_stateLaw h hexec
  | guardElapsed n => exact execGuardElapsed_stateLaw h hexec
  | rawLevelChange p level => cases hexec; split <;> exact h.of_eq rfl rfl rfl rfl rfl
  | stableLevelChange p =>
    cases hexec
    split
    · exact (evaluatePin_tracks p _).stateLaw (h.of_eq rfl rfl rfl rfl rfl)
    · exact h
  | busIdle => cases hexec; (repeat' split) <;> exact h.of_eq rfl rfl rfl rfl rfl
  | transactionBegin => cases hexec; (repeat' split) <;> exact h.of_eq rfl rfl rfl rfl rfl
  | transactionEnd => cases hexec; split <;> exact h.of_eq rfl rfl rfl rfl rfl

/-- What a step does: a command on the station with another queue and count of choices, or a millisecond passes. -/
theorem step_cases (h : step s = .next t) :
    (∃ c n q, exec c { s with choices := n, pending := q } = .next t) ∨ t = passTime s := by
  unfold step at h
  split at h
  next c rest _ => exact .inl ⟨c, s.choices, rest, h⟩
  next =>
    split at h
    next c _ => exact .inl ⟨c, _, s.pending, by rwa [countChoice_eq] at h⟩
    next => cases h; exact .inr rfl

/-- Settles O54: every command and the clock keep the clauses of the law. -/
theorem stateLawKept : Obligations.StateLawKept := by
  intro s t hs hstep
  rw [State.stateLawful_iff] at hs ⊢
  rcases step_cases hstep with ⟨c, n, q, hexec⟩ | rfl
  · have hq : ({ s with choices := n, pending := q } : State).StateLaw := hs.of_eq rfl rfl rfl rfl rfl
    exact exec_stateLaw hq hexec
  · exact passTime_stateLaw hs

end Sys2Proof.Machine
end

section
/-! PROOFS. What the reactions of the blocks leave of the line: the frame being sent, the CONTENDING entries and the ranges of the counts.
The laws of the attempt under way (R33, R149, R163) and of the ranges (R39, R74, R175 to R177, R198) rest on it. -/

namespace Sys2Proof.Machine

variable {s t u : State}

/-! ### The attempt in the queue -/

/-- The contents of the CONTENDING entries, oldest first (R142). -/
def State.attempt (s : State) : List Content := (s.oq.entries.filter (·.contending)).map (·.content)

theorem State.attempt_of_oq (h : t.oq = s.oq) : t.attempt = s.attempt := by rw [attempt, attempt, h]

theorem State.attempt_nil : s.attempt = [] ↔ ∀ e ∈ s.oq.entries, e.contending = false := by
  simp [attempt, List.filter_eq_nil_iff]

@[simp] theorem placeEntry_attempt (c : Content) (s : State) : (placeEntry c s).attempt = s.attempt := by
  simp [State.attempt, placeEntry, newEntry]

@[simp] theorem cancelQueued_attempt (p : Entry → Bool) (s : State) : (cancelQueued p s).attempt = s.attempt := by
  simp only [State.attempt, cancelQueued, State.withEntries_oq, List.filter_filter]
  congr 1
  apply List.filter_congr
  intro e _
  cases e.contending <;> simp

@[simp] theorem purgeAll_attempt (s : State) : (purgeAll s).attempt = s.attempt := by
  simp [State.attempt, purgeAll, List.filter_map, Function.comp_def]

@[simp] theorem removeContending_attempt (s : State) : (removeContending s).attempt = [] := by
  simp [State.attempt, removeContending]

@[simp] theorem returnContending_attempt (n : Nat) (s : State) : (returnContending n s).attempt = [] := by
  rw [State.attempt_nil]
  simp only [returnContending, State.withEntries_oq, List.mem_map]
  rintro _ ⟨e, _, rfl⟩
  cases hc : e.contending <;> simp [hc]

theorem contendingEntry_none : contendingEntry s = none ↔ s.attempt = [] := by
  simp [contendingEntry, State.attempt_nil, List.find?_eq_none]

@[simp] theorem setSlot_attempt (i : Tier) (r : Option HoldRecord) (s : State) : (setSlot i r s).attempt = s.attempt := rfl

@[simp] theorem cancelRequest_attempt (i : Tier) (s : State) : (cancelRequest i s).attempt = s.attempt :=
  cancelQueued_attempt _ s

@[simp] theorem startGuards_attempt (l : Lock) (s : State) : (startGuards l s).attempt = s.attempt :=
  State.attempt_of_oq (by simp)

@[simp] theorem stopGuards_attempt (l : Lock) (s : State) : (stopGuards l s).attempt = s.attempt := rfl

@[simp] theorem placeNotice_attempt (x : Notice) (s : State) : (placeNotice x s).attempt = s.attempt :=
  State.attempt_of_oq (by simp)

@[simp] theorem lockNotice_attempt (k : NoticeKind) (l : Lock) (g : Option Generation) (q : Qualifier) (s : State) :
    (lockNotice k l g q s).attempt = s.attempt := placeNotice_attempt _ s

@[simp] theorem stationNotice_attempt (k : NoticeKind) (m : Option Station) (q : Qualifier) (s : State) :
    (stationNotice k m q s).attempt = s.attempt := placeNotice_attempt _ s

@[simp] theorem ignorePin_attempt (p : Pin) (s : State) : (ignorePin p s).attempt = s.attempt := rfl

@[simp] theorem ignoreOrigin_attempt (o : Origin) (s : State) : (ignoreOrigin o s).attempt = s.attempt :=
  State.attempt_of_oq (by simp)

@[simp] theorem placeClaim_attempt (o : Origin) (l : Lock) (m : Mode) (limit : Byte) (s : State) :
    (placeClaim o l m limit s).attempt = s.attempt := by simp [placeClaim]

@[simp] theorem yieldRecord_attempt (why : Reason) (r : HoldRecord) (s : State) :
    (yieldRecord why r s).attempt = s.attempt := by
  unfold yieldRecord
  dsimp only
  split <;> simp

@[simp] theorem withdrawRecord_attempt (r : HoldRecord) (s : State) : (withdrawRecord r s).attempt = s.attempt := by
  unfold withdrawRecord
  (repeat' split) <;> simp

@[simp] theorem pinClaim_attempt (p : Pin) (l : Lock) (s : State) : (pinClaim p l s).attempt = s.attempt := by
  unfold pinClaim
  split <;> simp

@[simp] theorem evaluatePin_attempt (p : Pin) (s : State) : (evaluatePin p s).attempt = s.attempt := by
  unfold evaluatePin
  (repeat' split) <;> simp

@[simp] theorem evaluateOrigin_attempt (o : Origin) (s : State) : (evaluateOrigin o s).attempt = s.attempt := by
  cases o <;> simp [evaluateOrigin]

@[simp] theorem enterHeld_attempt (k : NoticeKind) (m : Bool) (g : Generation) (r : HoldRecord) (s : State) :
    (enterHeld k m g r s).attempt = s.attempt := by simp [enterHeld]

@[simp] theorem emptySlot_attempt (n : Option (NoticeKind × Option Generation × Qualifier)) (r : HoldRecord) (s : State) :
    (emptySlot n r s).attempt = s.attempt := by
  cases n <;> simp [emptySlot]

@[simp] theorem enterWaiting_attempt (g : Generation) (r : HoldRecord) (s : State) :
    (enterWaiting g r s).attempt = s.attempt := by simp [enterWaiting]

@[simp] theorem enterWithdrawing_attempt (r : HoldRecord) (s : State) : (enterWithdrawing r s).attempt = s.attempt := by
  unfold enterWithdrawing
  split <;> simp

@[simp] theorem withdrawLeft_attempt (r : HoldRecord) (s : State) : (withdrawLeft r s).attempt = s.attempt := by
  unfold withdrawLeft
  dsimp only
  split <;> simp

@[simp] theorem takeGrant_attempt (g : Generation) (r : HoldRecord) (s : State) : (takeGrant g r s).attempt = s.attempt := by
  unfold takeGrant
  split <;> simp

@[simp] theorem takeOutcome_attempt (o : LockOutcome) (s : State) : (takeOutcome o s).attempt = s.attempt := by
  unfold takeOutcome
  (repeat' split) <;> simp

@[simp] theorem takeOutcomes_attempt (l : List LockOutcome) (s : State) : (takeOutcomes l s).attempt = s.attempt := by
  unfold takeOutcomes
  generalize l.filter (fun o => o.subject == s.station) = m
  induction m generalizing s with
  | nil => rfl
  | cons o m ih => rw [List.foldl_cons, ih, takeOutcome_attempt]

/-- Nothing contends once a request frame is given back to the Request Tracker. -/
theorem requestReturned_attempt (b : Bool) (n : Nat) (c : Content) (s : State) : (requestReturned b n c s).attempt = [] := by
  unfold requestReturned
  (repeat' split) <;> simp

@[simp] theorem decideEviction_attempt (s : State) : (decideEviction s).attempt = s.attempt := by
  unfold decideEviction
  (repeat' split) <;> simp

@[simp] theorem revalidate_attempt (s : State) : (revalidate s).attempt = s.attempt := by
  have hpm : ∀ (w : State) (x : PresenceMonitor), (w.withPm x).attempt = w.attempt := fun _ _ => rfl
  unfold revalidate
  dsimp only
  (repeat' split) <;> simp [removeStale, hpm]

@[simp] theorem revalidateEvict_attempt (s : State) : (revalidateEvict s).attempt = s.attempt := by
  unfold revalidateEvict
  split <;> simp

@[simp] theorem keepFeeding_attempt (s : State) : (keepFeeding s).attempt = s.attempt := by
  unfold keepFeeding
  (repeat' split) <;> simp

@[simp] theorem ownFrameApplied_attempt (k : Kind) (s : State) : (ownFrameApplied k s).attempt = s.attempt := by
  have hpm : ∀ (w : State) (x : PresenceMonitor), (w.withPm x).attempt = w.attempt := fun _ _ => rfl
  unfold ownFrameApplied
  dsimp only
  (repeat' split) <;> simp [hpm]

@[simp] theorem senderReport_attempt (rep : Report) (s : State) : (senderReport rep s).attempt = s.attempt := by
  unfold senderReport
  split
  · simp
  · exact State.attempt_of_oq (by simp)

@[simp] theorem presenceReport_attempt (rep : Report) (s : State) : (presenceReport rep s).attempt = s.attempt := by
  have hoq : (presenceReport rep s).oq = (senderReport rep s).oq := by simp [presenceReport]
  rw [State.attempt_of_oq hoq, senderReport_attempt]

@[simp] theorem examinePins_attempt (s : State) : (examinePins s).attempt = s.attempt := by
  have hfold : ∀ (ps : List Pin) (w : State), (ps.foldl (fun t p => evaluatePin p t) w).attempt = w.attempt := by
    intro ps
    induction ps with
    | nil => exact fun _ => rfl
    | cons p ps ih => exact fun w => by rw [List.foldl_cons, ih, evaluatePin_attempt]
  exact hfold _ _

@[simp] theorem enterState_attempt (x : StationState) (s : State) : (enterState x s).attempt = s.attempt := by
  rw [State.attempt, enterState_oq]
  split
  · exact purgeAll_attempt s
  · rfl

/-! ### The ranges of the counts -/

/-- The clauses of State.countsLawful. -/
structure State.CountsLaw (s : State) : Prop where
  streak : s.au.streakCount ≤ 3
  ask : s.sc.askCount ≤ 4
  rx : s.lc.rxFaults ≤ 8
  tx : s.lc.txFaults ≤ 8
  collisions : s.lc.collisions ≤ 3
  notices : s.hp.notices.length ≤ 16

theorem State.countsLawful_iff (s : State) : s.countsLawful = true ↔ s.CountsLaw := by
  simp only [countsLawful, Bool.and_eq_true, decide_eq_true_eq]
  constructor
  · rintro ⟨⟨⟨⟨⟨hstreak, hask⟩, hrx⟩, htx⟩, hcollisions⟩, hnotices⟩
    exact ⟨hstreak, hask, hrx, htx, hcollisions, hnotices⟩
  · rintro ⟨hstreak, hask, hrx, htx, hcollisions, hnotices⟩
    exact ⟨⟨⟨⟨⟨hstreak, hask⟩, hrx⟩, htx⟩, hcollisions⟩, hnotices⟩

/-- The queue takes no more notices than it has room for (R198). -/
theorem State.tells.notices (h : s.tells t) (hs : s.hp.notices.length ≤ 16) : t.hp.notices.length ≤ 16 := by
  obtain ⟨l, hl⟩ := h
  rw [hl]
  simp only [HostPort.noticed, List.length_append, List.length_take]
  omega

/-- Nothing is counted; notices are placed. -/
theorem State.CountsLaw.told (h : s.CountsLaw) (hau : t.au.streakCount ≤ s.au.streakCount)
    (hsc : t.sc.askCount ≤ s.sc.askCount) (hrx : t.lc.rxFaults ≤ s.lc.rxFaults) (htx : t.lc.txFaults ≤ s.lc.txFaults)
    (hcollisions : t.lc.collisions ≤ s.lc.collisions) (hhp : s.tells t) : t.CountsLaw :=
  ⟨hau.trans h.streak, hsc.trans h.ask, hrx.trans h.rx, htx.trans h.tx, hcollisions.trans h.collisions,
    hhp.notices h.notices⟩

/-! ### Nothing done on the line -/

/-- The line and the frame being sent stay, with the CONTENDING entries, and the counts stay in range. -/
structure State.LeavesLine (s t : State) : Prop where
  line : t.lc.state = s.lc.state
  sending : t.lc.sending = s.lc.sending
  attempt : t.attempt = s.attempt
  counts : s.CountsLaw → t.CountsLaw

theorem State.LeavesLine.refl (s : State) : s.LeavesLine s := ⟨rfl, rfl, rfl, id⟩

theorem State.LeavesLine.trans (h1 : s.LeavesLine t) (h2 : t.LeavesLine u) : s.LeavesLine u :=
  ⟨h2.line.trans h1.line, h2.sending.trans h1.sending, h2.attempt.trans h1.attempt, fun h => h2.counts (h1.counts h)⟩

/-- A change that the Line Controller and the Apply Unit have no part in. -/
theorem State.LeavesLine.of_tells (hlc : t.lc = s.lc) (hau : t.au = s.au) (hsc : t.sc.askCount = s.sc.askCount)
    (hattempt : t.attempt = s.attempt) (hhp : s.tells t) : s.LeavesLine t :=
  ⟨by rw [hlc], by rw [hlc], hattempt, fun h => h.told (by rw [hau]) hsc.le (by rw [hlc]) (by rw [hlc]) (by rw [hlc]) hhp⟩

/-! ### The Request Tracker and the Presence Monitor -/

theorem takeOutcomes_leavesLine (l : List LockOutcome) (s : State) : s.LeavesLine (takeOutcomes l s) :=
  .of_tells (by simp) (by simp) (by simp) (by simp) (takeOutcomes_tells s l)

theorem evaluatePin_leavesLine (p : Pin) (s : State) : s.LeavesLine (evaluatePin p s) :=
  .of_tells (by simp) (by simp) (by simp) (by simp) (evaluatePin_tells s p)

theorem departHolds_leavesLine (rep : Report) (s : State) : s.LeavesLine (departHolds rep s) := by
  unfold departHolds
  split
  · exact .of_tells (by simp) (by simp) (by simp) (State.attempt_of_oq (by simp)) ⟨_, revokeAll_hp s⟩
  · exact .refl s

theorem memberAdded_tells (s : State) (m : Station) : s.tells (memberAdded m s) := by
  unfold memberAdded
  split
  · exact State.tells_of_eq (by simp)
  · have hhp : ∀ w : State, (evaluateQuorum w).hp = w.hp := by simp
    refine (State.tells.trans ?_ (stationNotice_tells _ _ _ _)).keep (hhp _)
    exact State.tells_of_eq rfl

theorem presenceReport_tells (rep : Report) (s : State) : s.tells (presenceReport rep s) := by
  have hsender : s.tells (senderReport rep s) := State.tells_of_eq (by simp)
  have hadded : ∀ w : State, w.tells (addedReport rep w) := fun w => by
    unfold addedReport
    split
    · exact memberAdded_tells w _
    · exact w.tells_refl
  have hremoved : ∀ w : State, w.tells (removedReport rep w) := fun w => by
    unfold removedReport
    split
    · exact memberRemoved_tells w _ _
    · exact w.tells_refl
  unfold presenceReport
  dsimp only
  exact ((((hsender.trans (hadded _)).trans (hremoved _)).trans (fenceChanged_tells _ _ _)).trans
    (fenceChanged_tells _ _ _)).trans (fenceChanged_tells _ _ _)

theorem presenceReport_leavesLine (rep : Report) (s : State) : s.LeavesLine (presenceReport rep s) :=
  .of_tells (by simp) (by simp) (by simp) (by simp) (presenceReport_tells rep s)

theorem decideEviction_leavesLine (s : State) : s.LeavesLine (decideEviction s) :=
  .of_tells (by simp) (by simp) (by simp) (by simp) (State.tells_of_eq (by simp))

theorem revalidateEvict_leavesLine (s : State) : s.LeavesLine (revalidateEvict s) :=
  .of_tells (by simp) (by simp) (by simp) (by simp) (revalidateEvict_tells s)

theorem revalidate_leavesLine (s : State) : s.LeavesLine (revalidate s) :=
  .of_tells (by simp) (by simp) (by simp) (by simp) (State.tells_of_eq (by simp))

theorem keepFeeding_leavesLine (s : State) : s.LeavesLine (keepFeeding s) :=
  .of_tells (by simp) (by simp) (by simp) (by simp) (State.tells_of_eq (by simp))

theorem placeEntry_leavesLine (c : Content) (s : State) : s.LeavesLine (placeEntry c s) :=
  .of_tells (by simp) (by simp) (by simp) (by simp) (State.tells_of_eq (by simp))

theorem stationNotice_leavesLine (k : NoticeKind) (m : Option Station) (q : Qualifier) (s : State) :
    s.LeavesLine (stationNotice k m q s) :=
  .of_tells (by simp) (by simp) (by simp) (by simp) (stationNotice_tells s k m q)

/-! ### The Station Controller -/

theorem enterState_leavesLine (x : StationState) (s : State) : s.LeavesLine (enterState x s) := by
  have hlc := enterState_lc s x
  have hau := enterState_au s x
  refine ⟨?_, ?_, enterState_attempt x s, fun h => h.told ?_ ?_ ?_ ?_ ?_ (State.tells_of_eq (by simp))⟩
  · rw [hlc]; split <;> rfl
  · rw [hlc]; split <;> rfl
  · rw [hau]
    (repeat' split) <;> simp [clearStreak, ApplyUnit.cleared]
  · simp [enterState_sc, StationController.inState]
  · rw [hlc]; split <;> simp [clearFaults]
  · rw [hlc]; split <;> simp [clearFaults]
  · rw [hlc]; split <;> exact le_rfl

theorem drop_leavesLine (c : DropCause) (s : State) : s.LeavesLine (drop c s) := by
  unfold drop
  dsimp only
  split
  · have hheld : s.LeavesLine (purgeAll (revokeAll (stopAllGuards s))) :=
      .of_tells (by simp) (by simp) (by simp) ((purgeAll_attempt _).trans (State.attempt_of_oq (by simp)))
        ⟨revokedNotices (stopAllGuards s).au.replica.busSeq (stopAllGuards s).rt, by simp [revokeAll_hp]⟩
    have hleft := hheld.trans (enterState_leavesLine (dropState c s) _)
    generalize enterState (dropState c s) (purgeAll (revokeAll (stopAllGuards s))) = w at hleft
    refine hleft.trans (State.LeavesLine.trans ?_ (stationNotice_leavesLine _ _ _ _))
    refine ⟨rfl, rfl, rfl, fun h => h.told le_rfl ?_ le_rfl le_rfl (Nat.zero_le _) (State.tells_of_eq rfl)⟩
    simp only [State.withSc_sc]
    split
    · exact Nat.zero_le _
    · exact le_rfl
  · exact .refl s

theorem giveUpJoin_leavesLine (k : NoticeKind) (m : Option Station) (s : State) : s.LeavesLine (giveUpJoin k m s) :=
  (enterState_leavesLine .ready s).trans (stationNotice_leavesLine _ _ _ _)

theorem ask_leavesLine (s : State) : s.LeavesLine (ask s) :=
  (enterState_leavesLine .asking s).trans (placeEntry_leavesLine _ _)

theorem otherFound_leavesLine (f : Frame) (s : State) : s.LeavesLine (otherFound f s) := by
  unfold otherFound
  split
  · exact ask_leavesLine s
  · exact giveUpJoin_leavesLine _ _ s

theorem presenceEntry_leavesLine (s : State) : s.LeavesLine (presenceEntry s) := by
  unfold presenceEntry
  dsimp only
  generalize hpm : (PresenceMonitor.mk 0 none _ false _ _ none : PresenceMonitor) = x
  have hw : s.LeavesLine (s.withPm x) := .of_tells rfl rfl rfl rfl (State.tells_of_eq rfl)
  split
  · exact hw.trans (stationNotice_leavesLine _ _ _ _)
  · exact hw

theorem examinePins_leavesLine (s : State) : s.LeavesLine (examinePins s) := by
  have hfold : ∀ (ps : List Pin) (w : State), w.LeavesLine (ps.foldl (fun t p => evaluatePin p t) w) := by
    intro ps
    induction ps with
    | nil => exact .refl
    | cons p ps ih => exact fun w => (evaluatePin_leavesLine p w).trans (ih _)
  refine State.LeavesLine.trans ?_ (hfold _ _)
  exact .of_tells rfl rfl rfl rfl (State.tells_of_eq rfl)

theorem enterMember_leavesLine (k : NoticeKind) (s : State) : s.LeavesLine (enterMember k s) :=
  ((stationNotice_leavesLine k none .none s).trans (presenceEntry_leavesLine _)).trans (examinePins_leavesLine _)

theorem found_leavesLine (s : State) : s.LeavesLine (found s) := by
  refine ((enterState_leavesLine .member s).trans ?_).trans (enterMember_leavesLine _ _)
  exact ⟨rfl, rfl, rfl, fun h => h.told le_rfl le_rfl le_rfl le_rfl le_rfl (State.tells_of_eq rfl)⟩

theorem enterCollecting_leavesLine (q : BusSeq) (page : PageZero) (s : State) :
    s.LeavesLine (enterCollecting q page s) := by
  refine (enterState_leavesLine .collecting s).trans ?_
  exact ⟨rfl, rfl, rfl, fun h => h.told le_rfl (Nat.zero_le _) le_rfl le_rfl le_rfl (State.tells_of_eq rfl)⟩

theorem observe_leavesLine (own : Bool) (f : Frame) (s : State) : s.LeavesLine (observe own f s) := by
  unfold observe
  split
  · split
    · exact otherFound_leavesLine f s
    · exact ask_leavesLine s
  · (repeat' split)
    · exact found_leavesLine s
    · refine State.LeavesLine.trans ?_ (otherFound_leavesLine f _)
      exact .of_tells (by simp) (by simp) (by simp) (by simp) (State.tells_of_eq (by simp))
    · exact .refl s
  · split
    · exact enterState_leavesLine _ s
    · exact .refl s
  · split
    · unfold observePageZero
      (repeat' split)
      · exact .refl s
      · exact enterCollecting_leavesLine _ _ s
      · exact .of_tells rfl rfl rfl rfl (State.tells_of_eq rfl)
      · exact .refl s
    · exact .refl s
  · exact .refl s

theorem joinAbandoned_leavesLine (c : Content) (s : State) : s.LeavesLine (joinAbandoned c s) := by
  unfold joinAbandoned
  split
  · exact giveUpJoin_leavesLine _ _ s
  · exact giveUpJoin_leavesLine _ _ s
  · exact giveUpJoin_leavesLine _ _ s
  · exact .refl s

theorem roundOut_leavesLine (s : State) : s.LeavesLine (roundOut s) := by
  have hcount : s.LeavesLine (s.withSc { s.sc with askCount := min 4 (s.sc.askCount + 1) }) :=
    ⟨rfl, rfl, rfl, fun h => ⟨h.streak, min_le_left _ _, h.rx, h.tx, h.collisions, h.notices⟩⟩
  unfold roundOut
  dsimp only
  split
  · exact hcount.trans (enterState_leavesLine _ _)
  · exact hcount.trans (giveUpJoin_leavesLine _ _ _)

/-! ### The reactions to a report -/

theorem ownDepart_leavesLine (rep : Report) (s : State) : s.LeavesLine (ownDepart rep s) := by
  unfold ownDepart
  (repeat' split) <;> try exact .refl s
  · exact (enterState_leavesLine .ready s).trans (stationNotice_leavesLine _ _ _ _)
  · have hmark : s.LeavesLine (s.withSc { s.sc with staleMark := false }) :=
      .of_tells rfl rfl rfl rfl (State.tells_of_eq rfl)
    unfold staleDepartLeft
    dsimp only
    split
    · exact hmark
    · exact hmark.trans (placeEntry_leavesLine _ _)

theorem ownEnrol_leavesLine (rep : Report) (s : State) : s.LeavesLine (ownEnrol rep s) := by
  unfold ownEnrol
  (repeat' split) <;> try exact .refl s
  · exact (enterState_leavesLine .member s).trans (enterMember_leavesLine _ _)
  · refine State.LeavesLine.trans ?_ (placeEntry_leavesLine _ _)
    exact .of_tells rfl rfl rfl rfl (State.tells_of_eq rfl)

theorem roundBroken_leavesLine (rep : Report) (s : State) : s.LeavesLine (roundBroken rep s) := by
  unfold roundBroken
  (repeat' split) <;> first | exact enterState_leavesLine _ s | exact .refl s

theorem collectionDone_leavesLine (s : State) : s.LeavesLine (collectionDone s) := by
  unfold collectionDone
  split
  · exact (enterState_leavesLine .enrolling s).trans (placeEntry_leavesLine _ _)
  · exact .refl s

theorem stationReport_leavesLine (rep : Report) (s : State) : s.LeavesLine (stationReport rep s) := by
  have hdone := (((ownDepart_leavesLine rep s).trans (ownEnrol_leavesLine rep _)).trans
    (roundBroken_leavesLine rep _)).trans (collectionDone_leavesLine _)
  unfold stationReport
  dsimp only
  split
  · exact hdone.trans (drop_leavesLine _ _)
  · exact hdone

theorem presenceReactions_leavesLine (rep : Report) (s : State) : s.LeavesLine (presenceReactions rep s) := by
  unfold presenceReactions
  split
  · have hdrop : s.LeavesLine (if ousts rep s then drop .ouster (presenceReport rep s) else presenceReport rep s) := by
      split
      · exact (presenceReport_leavesLine rep s).trans (drop_leavesLine _ _)
      · exact presenceReport_leavesLine rep s
    dsimp only
    refine State.LeavesLine.trans ?_ (revalidateEvict_leavesLine _)
    split
    · exact hdrop.trans (decideEviction_leavesLine _)
    · exact hdrop
  · exact .refl s

theorem handOn_leavesLine (rep : Report) (s : State) : s.LeavesLine (handOn rep s) := by
  unfold handOn
  split
  · have hreport := ((((takeOutcomes_leavesLine rep.outcomes s).trans (departHolds_leavesLine rep _)).trans
      (presenceReactions_leavesLine rep _)).trans (stationReport_leavesLine rep _)).trans (keepFeeding_leavesLine _)
    unfold reactApplied
    dsimp only
    split
    · exact hreport.trans (revalidate_leavesLine _)
    · exact hreport
  · unfold reactOther
    dsimp only
    have hown : s.LeavesLine (if rep.own ∧ rep.kind = .evict then decideEviction s else s) := by
      split
      · exact decideEviction_leavesLine s
      · exact .refl s
    exact (hown.trans (stationReport_leavesLine rep _)).trans (keepFeeding_leavesLine _)

/-! ### Accepted frames -/

theorem takeFrame_leavesLine (own : Bool) (f : Frame) (s : State) : s.LeavesLine (takeFrame own f s).1 := by
  have hstreak : s.au.streakCount ≤ 3 → (takeFrame own f s).1.au.streakCount ≤ 3 := by
    have hinstall : ∀ (w : State) rep, (installPage f.payload w rep).1.au.streakCount = w.au.streakCount := fun w rep => by
      unfold installPage
      dsimp only
      split <;> rfl
    intro h
    unfold takeFrame
    split
    · unfold applyFrame
      dsimp only
      (repeat' split) <;> simp [hinstall, clearStreak, h]
    · exact min_le_left _ _
    · exact h
  have hask : (takeFrame own f s).1.sc.askCount = s.sc.askCount := by
    rcases takeFrame_sc own f s with hsc | ⟨-, hsc⟩ <;> rw [hsc]
  refine ⟨by simp, by simp, State.attempt_of_oq (by simp), fun h => ⟨hstreak h.streak, hask.trans_le h.ask, ?_, ?_, ?_, ?_⟩⟩
  · simpa using h.rx
  · simpa using h.tx
  · simpa using h.collisions
  · simpa using h.notices

/-- No attempt is under way: no frame is being sent, nothing is CONTENDING, and the line is not SENDING (R163). -/
structure State.AtRest (s : State) : Prop where
  line : s.lc.state ≠ .sending
  sending : s.lc.sending = none
  attempt : s.attempt = []

theorem State.AtRest.leaves (h : s.AtRest) (hl : s.LeavesLine t) : t.AtRest :=
  ⟨by rw [hl.line]; exact h.line, by rw [hl.sending]; exact h.sending, by rw [hl.attempt]; exact h.attempt⟩

theorem ownAccepted_lc (k : Kind) (s : State) : (ownAccepted k s).lc = { s.lc with sending := none } := by
  unfold ownAccepted
  dsimp only
  split <;> rfl

theorem ownAccepted_attempt (k : Kind) (s : State) : (ownAccepted k s).attempt = [] := by
  obtain ⟨-, -, -, -, -, -, -, -, hoq, -⟩ := ownAccepted_effect k s
  simp [State.attempt_nil, hoq]

theorem ownAccepted_atRest (k : Kind) (h : s.lc.state ≠ .sending) : (ownAccepted k s).AtRest :=
  ⟨by rw [ownAccepted_lc]; exact h, by rw [ownAccepted_lc], ownAccepted_attempt k s⟩

theorem ownAccepted_countsLaw (k : Kind) (h : s.CountsLaw) : (ownAccepted k s).CountsLaw := by
  refine h.told ?_ ?_ ?_ ?_ ?_ (State.tells_of_eq (by simp)) <;> simp [ownAccepted_lc]

/-- Once an own frame is accepted, no attempt is under way (R152). -/
theorem acceptFrame_own_atRest (f : Frame) (h : s.lc.state ≠ .sending) : (acceptFrame true f s).AtRest := by
  unfold acceptFrame
  split
  · have hline : (takeFrame true f s).1.lc.state ≠ .sending := by rw [(takeFrame_leavesLine true f s).line]; exact h
    exact (ownAccepted_atRest f.kind hline).leaves (handOn_leavesLine _ _)
  · exact (ownAccepted_atRest f.kind h).leaves (observe_leavesLine _ _ _)

theorem acceptFrame_other_leavesLine (f : Frame) (s : State) : s.LeavesLine (acceptFrame false f s) := by
  unfold acceptFrame
  split
  · exact (takeFrame_leavesLine false f s).trans (handOn_leavesLine _ _)
  · exact observe_leavesLine _ _ s

theorem acceptFrame_countsLaw (own : Bool) (f : Frame) (h : s.CountsLaw) : (acceptFrame own f s).CountsLaw := by
  cases own
  · exact (acceptFrame_other_leavesLine f s).counts h
  · unfold acceptFrame
    split
    · exact (handOn_leavesLine _ _).counts (ownAccepted_countsLaw _ ((takeFrame_leavesLine true f s).counts h))
    · exact (observe_leavesLine _ _ _).counts (ownAccepted_countsLaw _ h)

/-! ### The line -/

theorem reportMute_leavesLine (b : Bool) (s : State) : s.LeavesLine (reportMute b s) := by
  unfold reportMute
  split
  · exact drop_leavesLine _ s
  · exact .refl s

theorem reportDuplicate_leavesLine (b : Bool) (s : State) : s.LeavesLine (reportDuplicate b s) := by
  unfold reportDuplicate
  split
  · exact drop_leavesLine _ s
  · exact .refl s

theorem requestReturned_tells (b : Bool) (n : Nat) (c : Content) (s : State) : s.tells (requestReturned b n c s) := by
  unfold requestReturned
  (repeat' split) <;> first | exact emptySlot_tells _ _ (by simp) | exact State.tells_of_eq (by simp)

/-- An attempt that has ended without acceptance is no longer under way, and its end counts nothing (R150, R151, R154). -/
theorem returnAttempt_atRest (v : Bool) (h : s.lc.state ≠ .sending) : (returnAttempt v s).AtRest := by
  have hends := returnAttempt_ends v s
  have hline : (s.withLc { s.lc with sending := none }).lc.state ≠ .sending := h
  have hsending : (s.withLc { s.lc with sending := none }).lc.sending = none := rfl
  generalize s.withLc { s.lc with sending := none } = w at hends hline hsending
  generalize returnAttempt v s = t at hends ⊢
  have hremoved : (removeContending w).AtRest := ⟨hline, hsending, removeContending_attempt w⟩
  cases hends with
  | none h => exact ⟨hline, hsending, contendingEntry_none.mp h⟩
  | removed => exact hremoved
  | dropped o =>
    exact ⟨by simpa using hline, by simpa using hsending, (State.attempt_of_oq (by simp)).trans hremoved.attempt⟩
  | request b n c => exact ⟨by simpa using hline, by simpa using hsending, requestReturned_attempt b n c w⟩
  | abandoned c => exact hremoved.leaves (joinAbandoned_leavesLine c _)
  | returned n => exact ⟨hline, hsending, returnContending_attempt n w⟩

theorem returnAttempt_countsLaw (v : Bool) (h : s.CountsLaw) : (returnAttempt v s).CountsLaw := by
  have hends := returnAttempt_ends v s
  have hw : (s.withLc { s.lc with sending := none }).CountsLaw :=
    h.told le_rfl le_rfl le_rfl le_rfl le_rfl (State.tells_of_eq rfl)
  generalize s.withLc { s.lc with sending := none } = w at hends hw
  generalize returnAttempt v s = t at hends ⊢
  have hremoved : (removeContending w).CountsLaw := hw.told le_rfl le_rfl le_rfl le_rfl le_rfl (State.tells_of_eq rfl)
  cases hends with
  | none => exact hw
  | removed => exact hremoved
  | dropped o =>
    refine hremoved.told ?_ ?_ ?_ ?_ ?_ (State.tells_of_eq (by simp)) <;> simp
  | request b n c =>
    refine hw.told ?_ ?_ ?_ ?_ ?_ (requestReturned_tells b n c w) <;> simp
  | abandoned c => exact (joinAbandoned_leavesLine c _).counts hremoved
  | returned n => exact hw.told le_rfl le_rfl le_rfl le_rfl le_rfl (State.tells_of_eq rfl)

/-! ### The counts at the end of a frame -/

theorem countFault_leavesLine (m : Option Station) (s : State) : s.LeavesLine (countFault m s) := by
  unfold countFault
  (repeat' split) <;> try exact .refl s
  all_goals
    exact ⟨rfl, rfl, rfl, fun h => ⟨h.streak, h.ask, min_le_left _ _, h.tx, h.collisions, h.notices⟩⟩

theorem countClean_leavesLine (s : State) : s.LeavesLine (countClean s) := by
  unfold countClean
  split
  · exact ⟨rfl, rfl, rfl, fun h => ⟨h.streak, h.ask, Nat.zero_le _, h.tx, h.collisions, h.notices⟩⟩
  · exact .refl s

theorem countTransmit_leavesLine (b : Bool) (s : State) : s.LeavesLine (countTransmit b s) := by
  unfold countTransmit
  split
  · refine ⟨rfl, rfl, rfl, fun h => ⟨h.streak, h.ask, h.rx, ?_, h.collisions, h.notices⟩⟩
    simp only [State.withLc_lc]
    split <;> omega
  · exact .refl s

theorem countCollision_leavesLine (b : Bool) (s : State) : s.LeavesLine (countCollision b s) := by
  refine ⟨rfl, rfl, rfl, fun h => ⟨h.streak, h.ask, h.rx, h.tx, ?_, h.notices⟩⟩
  simp only [countCollision, State.withLc_lc]
  (repeat' split) <;> omega

theorem State.CountsLaw.setLine (h : s.CountsLaw) (x : LineState) : (setLine x s).CountsLaw :=
  ⟨h.streak, h.ask, h.rx, h.tx, h.collisions, h.notices⟩

theorem keepRead_leavesLine (l : List Cell) (s : State) : s.LeavesLine (keepRead l s) :=
  ⟨rfl, rfl, rfl, fun h => ⟨h.streak, h.ask, h.rx, h.tx, h.collisions, h.notices⟩⟩

theorem keepSent_leavesLine (f : Frame) (l : List Cell) (s : State) : s.LeavesLine (keepSent f l s) :=
  ⟨rfl, rfl, rfl, fun h => ⟨h.streak, h.ask, h.rx, h.tx, h.collisions, h.notices⟩⟩

/-- The line and the counts of a sender at the end of its frame, before the entry's own end. -/
theorem sentCounts_leavesLine (f : Frame) (rd : Reading) (collided mismatch : Bool) (s : State) :
    (setLine .closing (keepSent f rd.cells s)).LeavesLine
      (countTransmit mismatch (countCollision collided (setLine .closing (keepSent f rd.cells s)))) :=
  (countCollision_leavesLine _ _).trans (countTransmit_leavesLine _ _)

theorem sentCounts_line (f : Frame) (rd : Reading) (collided mismatch : Bool) (s : State) :
    (countTransmit mismatch (countCollision collided (setLine .closing (keepSent f rd.cells s)))).lc.state = .closing :=
  (sentCounts_leavesLine f rd collided mismatch s).line

theorem sentCounts_countsLaw (f : Frame) (rd : Reading) (collided mismatch : Bool) (h : s.CountsLaw) :
    (countTransmit mismatch (countCollision collided (setLine .closing (keepSent f rd.cells s)))).CountsLaw :=
  (sentCounts_leavesLine f rd collided mismatch s).counts (((keepSent_leavesLine f rd.cells s).counts h).setLine .closing)

theorem voidOwn_atRest (f : Frame) (rd : Reading) (s : State) : (voidOwn f rd s).AtRest := by
  unfold voidOwn
  dsimp only
  refine ((returnAttempt_atRest true ?_).leaves (reportMute_leavesLine _ _)).leaves (reportDuplicate_leavesLine _ _)
  rw [sentCounts_line]
  simp

theorem voidOwn_countsLaw (f : Frame) (rd : Reading) (h : s.CountsLaw) : (voidOwn f rd s).CountsLaw := by
  unfold voidOwn
  dsimp only
  exact (reportDuplicate_leavesLine _ _).counts ((reportMute_leavesLine _ _).counts
    (returnAttempt_countsLaw true (sentCounts_countsLaw f rd _ _ h)))

/-- The line of a receiver goes to CLOSING; no attempt is under way before or after (R163, R172). -/
theorem State.AtRest.closes (h : s.AtRest) : (setLine .closing s).AtRest := ⟨by simp [setLine], h.sending, h.attempt⟩

theorem endReceived_atRest (x : Received) (rd : Reading) (h : s.AtRest) : (endReceived x rd s).AtRest := by
  have hclosed : (setLine .closing (keepRead rd.cells s)).AtRest := (h.leaves (keepRead_leavesLine rd.cells s)).closes
  unfold endReceived
  split
  · exact h
  · exact (hclosed.leaves (countFault_leavesLine _ _)).leaves (reportMute_leavesLine _ _)
  · exact hclosed.leaves (countClean_leavesLine _)

theorem endReceived_countsLaw (x : Received) (rd : Reading) (h : s.CountsLaw) : (endReceived x rd s).CountsLaw := by
  have hclosed : (setLine .closing (keepRead rd.cells s)).CountsLaw :=
    ((keepRead_leavesLine rd.cells s).counts h).setLine .closing
  unfold endReceived
  split
  · exact h
  · exact (reportMute_leavesLine _ _).counts ((countFault_leavesLine _ _).counts hclosed)
  · exact (countClean_leavesLine _).counts hclosed

theorem acceptedFrame_countsLaw (k : Kind) (rd : Reading) (h : s.CountsLaw) : (acceptedFrame k rd s).CountsLaw := by
  unfold acceptedFrame
  (repeat' split) <;> try exact h
  · exact acceptFrame_countsLaw true _ (sentCounts_countsLaw _ rd _ _ h)
  · exact acceptFrame_countsLaw false _ (endReceived_countsLaw _ rd h)
  · exact endReceived_countsLaw _ rd h

/-- An accepted frame leaves no attempt under way, or nothing has changed. -/
theorem acceptedFrame_atRest (k : Kind) (rd : Reading) (h : s.lc.state = .receiving → s.AtRest) :
    acceptedFrame k rd s = s ∨ (acceptedFrame k rd s).AtRest := by
  unfold acceptedFrame
  split
  · exact .inl rfl
  split
  · (repeat' split)
    next f _ _ =>
      refine .inr (acceptFrame_own_atRest f ?_)
      rw [sentCounts_line]
      simp
    next => exact .inl rfl
    next => exact .inl rfl
  next hline =>
    split
    · split
      · exact .inr ((endReceived_atRest _ rd (h hline)).leaves (acceptFrame_other_leavesLine _ _))
      · exact .inl rfl
    · exact .inr (endReceived_atRest _ rd (h hline))
  · exact .inl rfl

/-! ### Commands that do nothing on the line -/

theorem takeTransaction_leavesLine {bytes : List Byte} {act : State → Answer} (hact : ∀ w : State, w.LeavesLine (act w).1)
    (s : State) : s.LeavesLine (takeTransaction bytes act s) := by
  have hnotices : (bytes.foldl receiveByte s.hp).notices = s.hp.notices := by
    have hbyte : ∀ (p : HostPort) b, (receiveByte p b).notices = p.notices := fun p b => by
      unfold receiveByte
      dsimp only
      split <;> rfl
    generalize s.hp = p
    induction bytes generalizing p with
    | nil => rfl
    | cons b bytes ih => rw [List.foldl_cons, ih, hbyte]
  unfold takeTransaction
  split
  · have hport : s.LeavesLine (s.withHp (bytes.foldl receiveByte s.hp)) :=
      ⟨rfl, rfl, rfl, fun h => ⟨h.streak, h.ask, h.rx, h.tx, h.collisions, hnotices ▸ h.notices⟩⟩
    refine (hport.trans (hact _)).trans ⟨rfl, rfl, rfl, fun h => ?_⟩
    exact ⟨h.streak, h.ask, h.rx, h.tx, h.collisions, h.notices⟩
  · exact .refl s

theorem onLock_leavesLine {act : Lock → State → Answer} (lock : Byte) (hact : ∀ (l : Lock) (w : State), w.LeavesLine (act l w).1)
    (s : State) : s.LeavesLine (onLock lock act s).1 := by
  unfold onLock
  (repeat' split) <;> first | exact hact _ s | exact .refl s

theorem claimLock_leavesLine (m : Mode) (limit : Byte) (l : Lock) (s : State) : s.LeavesLine (claimLock m limit l s).1 := by
  unfold claimLock
  (repeat' split) <;> try exact .refl s
  exact .of_tells (by simp [answer]) (by simp [answer]) (by simp [answer]) (by simp [answer])
    (State.tells_of_eq (by simp [answer]))

theorem yieldLock_leavesLine (l : Lock) (s : State) : s.LeavesLine (yieldLock l s).1 := by
  unfold yieldLock
  (repeat' split) <;> try exact .refl s
  exact .of_tells (by simp [answer]) (by simp [answer]) (by simp [answer]) (by simp [answer])
    (State.tells_of_eq (by simp [answer]))

theorem withdrawLock_leavesLine (l : Lock) (s : State) : s.LeavesLine (withdrawLock l s).1 := by
  unfold withdrawLock
  (repeat' split) <;> try exact .refl s
  exact .of_tells (by simp [answer]) (by simp [answer]) (by simp [answer]) (by simp [answer]) (withdrawRecord_tells s _)

theorem renewLock_leavesLine (l : Lock) (s : State) : s.LeavesLine (renewLock l s).1 := by
  unfold renewLock
  (repeat' split) <;> try exact .refl s
  all_goals exact .of_tells rfl rfl rfl rfl (State.tells_of_eq rfl)

theorem answerClaim_leavesLine (lock mode limit : Byte) (s : State) : s.LeavesLine (answerClaim lock mode limit s).1 := by
  unfold answerClaim
  split
  · exact .refl s
  · exact onLock_leavesLine lock (claimLock_leavesLine _ limit) s

theorem answerConfigure_leavesLine (record : Vector Byte 20) (s : State) :
    s.LeavesLine (answerConfigure record s).1 := by
  unfold answerConfigure
  (repeat' split) <;> try exact .refl s
  exact .of_tells rfl rfl rfl rfl (State.tells_of_eq rfl)

theorem answerJoin_leavesLine (s : State) : s.LeavesLine (answerJoin s).1 := by
  unfold answerJoin
  split
  · exact ⟨rfl, rfl, rfl, fun h => h.told le_rfl (Nat.zero_le _) le_rfl le_rfl le_rfl (State.tells_of_eq rfl)⟩
  · exact .refl s

theorem answerLeave_leavesLine (s : State) : s.LeavesLine (answerLeave s).1 := by
  unfold answerLeave
  (repeat' split) <;> try exact .refl s
  · have hpurged : s.LeavesLine (purgeRequests (leaveHolds (stopAllGuards s))) :=
      .of_tells (by simp [purgeRequests]) (by simp [purgeRequests]) (by simp [purgeRequests])
        ((cancelQueued_attempt _ _).trans (State.attempt_of_oq (by simp))) (State.tells_of_eq (by simp [purgeRequests]))
    exact (hpurged.trans (enterState_leavesLine .departing _)).trans (placeEntry_leavesLine _ _)
  · have hpurged : s.LeavesLine (purgeAll s) :=
      .of_tells (by simp) (by simp) (by simp) (by simp) (State.tells_of_eq (by simp))
    exact hpurged.trans (enterState_leavesLine .ready _)

theorem contactDue_leavesLine (s : State) : s.LeavesLine (contactDue s) := by
  unfold contactDue
  dsimp only
  split
  · exact .of_tells rfl rfl rfl rfl (State.tells_of_eq rfl)
  · exact .of_tells (by simp) (by simp) (by simp) ((placeEntry_attempt _ _).trans rfl) (State.tells_of_eq (by simp))

theorem promoteBeacon_leavesLine (s : State) : s.LeavesLine (promoteBeacon s) := by
  have hkeep : ∀ e, (promoteEntry e).contending = e.contending ∧ (promoteEntry e).content = e.content := fun e => by
    unfold promoteEntry
    split <;> exact ⟨rfl, rfl⟩
  refine .of_tells rfl rfl rfl ?_ (State.tells_of_eq rfl)
  simp [State.attempt, promoteBeacon, List.filter_map, Function.comp_def, hkeep]

theorem contactFence_leavesLine (s : State) : s.LeavesLine (contactFence s) := by
  unfold contactFence
  dsimp only
  refine State.LeavesLine.trans ?_ (.of_tells (by simp) (by simp) (by simp) (State.attempt_of_oq (by simp))
    (fenceChanged_tells _ _ _))
  exact .of_tells rfl rfl rfl rfl (State.tells_of_eq rfl)

theorem expireHold_leavesLine (r : HoldRecord) (s : State) : s.LeavesLine (expireHold r s) :=
  .of_tells (by simp) (by simp) (by simp) (by simp [expireHold])
    ((State.tells_of_eq (by simp)).trans (lockNotice_tells (yieldRecord .expired r s) _ _ _ _))

theorem hostClock_notices (p : HostPort) : (hostClock p).notices = p.notices := by
  have hbit : ∀ q : HostPort, (clockBit q).notices = q.notices := fun q => by
    unfold clockBit
    split <;> rfl
  have hbits : ∀ n (q : HostPort), (clockBits n q).notices = q.notices := by
    intro n
    induction n with
    | zero => exact fun _ => rfl
    | succ n ih => exact fun q => (ih _).trans (hbit q)
  unfold hostClock
  split
  · exact hbits 8 p
  · rfl

theorem passTime_leavesLine (s : State) : s.LeavesLine (passTime s) := by
  unfold passTime
  split
  · exact .refl s
  · refine ⟨rfl, rfl, rfl, fun h => ⟨h.streak, h.ask, h.rx, h.tx, h.collisions, ?_⟩⟩
    simpa [hostClock_notices] using h.notices

/-- The events of the line: the frames, the moments of an attempt, and the resets, which end it. -/
def lineEvent : Instr → Bool
  | .hardReset => true
  | .hardResetEnd _ _ => true
  | .resetCommand => true
  | .busOpportunity => true
  | .startBitConfirmed => true
  | .unconfirmedStartBit => true
  | .arbitrationLost => true
  | .frameLost _ => true
  | .endFault => true
  | .frameVoided _ => true
  | .claimFrame _ => true
  | .yieldFrame _ => true
  | .withdrawFrame _ => true
  | .evictFrame _ => true
  | .departFrame _ => true
  | .beaconFrame _ => true
  | .syncAskFrame _ => true
  | .pageFrame _ => true
  | .enrolFrame _ => true
  | .foundFrame _ => true
  | .busIdle => true
  | _ => false

/-- A command that is no event of the line does nothing there. -/
theorem exec_leavesLine {i : Instr} (hi : lineEvent i = false) (h : exec i s = .next t) : s.LeavesLine t := by
  have hquiet : ∀ x : HostPort, (s.hp.notices.length ≤ 16 → x.notices.length ≤ 16) → s.LeavesLine (s.withHp x) :=
    fun x hx => ⟨rfl, rfl, rfl, fun h => ⟨h.streak, h.ask, h.rx, h.tx, h.collisions, hx h.notices⟩⟩
  cases i with
  | configureCommand record => cases h; exact takeTransaction_leavesLine (answerConfigure_leavesLine record) s
  | joinCommand => cases h; exact takeTransaction_leavesLine answerJoin_leavesLine s
  | leaveCommand => cases h; exact takeTransaction_leavesLine answerLeave_leavesLine s
  | claimCommand lock mode limit => cases h; exact takeTransaction_leavesLine (answerClaim_leavesLine lock mode limit) s
  | yieldCommand lock => cases h; exact takeTransaction_leavesLine (onLock_leavesLine lock yieldLock_leavesLine) s
  | withdrawCommand lock => cases h; exact takeTransaction_leavesLine (onLock_leavesLine lock withdrawLock_leavesLine) s
  | renewCommand lock => cases h; exact takeTransaction_leavesLine (onLock_leavesLine lock renewLock_leavesLine) s
  | readLockCommand lock =>
    cases h
    refine takeTransaction_leavesLine (fun w => ?_) s
    unfold answerReadLock
    split <;> exact .refl w
  | readRosterCommand => cases h; exact takeTransaction_leavesLine .refl s
  | readHoldsCommand => cases h; exact takeTransaction_leavesLine .refl s
  | readNoticeCommand =>
    cases h
    refine takeTransaction_leavesLine (fun w => ?_) s
    unfold answerReadNotice
    split <;> exact .refl w
  | readStatusCommand =>
    cases h
    refine takeTransaction_leavesLine (fun w => ⟨rfl, rfl, rfl, fun h => ?_⟩) s
    exact ⟨h.streak, h.ask, h.rx, h.tx, h.collisions, h.notices⟩
  | unknownCommand code =>
    cases h
    split
    · exact takeTransaction_leavesLine .refl s
    · exact .refl s
  | transactionTruncated => cases h; split <;> exact hquiet _ id
  | readNoticeCompletion =>
    cases h
    split
    · refine hquiet _ fun hle => ?_
      dsimp only
      split
      · rw [List.length_tail]; omega
      · exact hle
    · exact .refl s
  | readStatusCompletion => cases h; split <;> exact hquiet _ id
  | transactionBegin => cases h; (repeat' split) <;> exact hquiet _ id
  | transactionEnd => cases h; split <;> exact hquiet _ id
  | ownContactReachesP => cases h; split <;> first | exact contactDue_leavesLine s | exact .refl s
  | beaconPromoted => cases h; split <;> first | exact promoteBeacon_leavesLine s | exact .refl s
  | fenceLimit => cases h; split <;> first | exact contactFence_leavesLine s | exact .refl s
  | absenceLimit m =>
    cases h
    split
    · refine State.LeavesLine.trans ?_ (decideEviction_leavesLine _)
      exact .of_tells rfl rfl rfl rfl (State.tells_of_eq rfl)
    · exact .refl s
  | stranding => cases h; split <;> first | exact drop_leavesLine _ s | exact .refl s
  | foundingWait =>
    cases h
    split
    · exact (enterState_leavesLine .founding s).trans (placeEntry_leavesLine _ _)
    · exact .refl s
  | roundTimeout => cases h; split <;> first | exact roundOut_leavesLine s | exact .refl s
  | holdExpiry i => cases h; (repeat' split) <;> first | exact expireHold_leavesLine _ s | exact .refl s
  | guardElapsed n =>
    cases h
    split
    · exact .of_tells rfl rfl rfl rfl (State.tells_of_eq rfl)
    · exact .refl s
  | rawLevelChange p level =>
    cases h
    split
    · exact .refl s
    · exact .of_tells rfl rfl rfl rfl (State.tells_of_eq rfl)
  | stableLevelChange p =>
    cases h
    split
    · refine State.LeavesLine.trans ?_ (evaluatePin_leavesLine p _)
      exact .of_tells rfl rfl rfl rfl (State.tells_of_eq rfl)
    · exact .refl s
  | _ => cases hi

end Sys2Proof.Machine
end

section
/-! PROOFS. The law of the attempt under way (R33, R149, R163), and the ranges of the transfer record, the counts and the notice queue (R28,
R39, R74, R175 to R177, R198). -/

namespace Sys2Proof.Machine

variable {s t u : State} {f : Frame} {c : Content}

/-! ### The attempt under way -/

/-- The frame being sent is that of an entry with these contents (State.sendsEntry). -/
def State.sendsContent (s : State) (f : Frame) (c : Content) : Prop :=
  f.sender = s.station ∧ f.kind = kindOf c ∧ f.flags = flagsOf c ∧ (isRequest c = true → f.payload = payloadOf c s) ∧
    (voting s.sc.state = true → f.busSeq = s.au.replica.busSeq)

theorem sendsEntry_iff (s : State) (f : Frame) (e : Entry) : s.sendsEntry f e = true ↔ s.sendsContent f e.content := by
  cases hr : isRequest e.content <;> cases hv : voting s.sc.state <;>
    simp [State.sendsEntry, State.sendsContent, hr, hv, and_assoc]

/-- An attempt is under way: one entry is CONTENDING, its frame is being sent, and the line is IDLE or SENDING (R149, R163). -/
structure State.Attempting (s : State) (f : Frame) (c : Content) : Prop where
  line : s.lc.state = .idle ∨ s.lc.state = .sending
  sending : s.lc.sending = some f
  attempt : s.attempt = [c]
  active : s.inReset = false
  frame : s.sendsContent f c

/-- The law says that no attempt is under way, or exactly one is. -/
theorem attemptLawful_iff (s : State) : s.attemptLawful = true ↔ s.AtRest ∨ ∃ f c, s.Attempting f c := by
  have hany : s.oq.entries.any (·.contending) = !(s.oq.entries.filter (·.contending)).isEmpty := by
    rw [Bool.eq_iff_iff]
    simp [List.filter_eq_nil_iff]
  have hentry : ∀ f : Frame, (s.oq.entries.any fun e => e.contending && s.sendsEntry f e)
      = (s.oq.entries.filter (·.contending)).any (s.sendsEntry f) := fun f => by rw [List.any_filter]
  have hattempt : s.attempt = (s.oq.entries.filter (·.contending)).map (·.content) := rfl
  simp only [State.attemptLawful, hany, hentry]
  generalize s.oq.entries.filter (·.contending) = l at hattempt
  constructor
  · simp only [Bool.and_eq_true, Bool.or_eq_true, decide_eq_true_eq, beq_iff_eq, bne_iff_ne]
    rintro ⟨⟨⟨⟨hone, hsome⟩, hline⟩, hsend⟩, hframe⟩
    match l, hone with
    | [], _ =>
      refine .inl ⟨by simpa using hsend, by simpa using hsome, hattempt⟩
    | [e], _ =>
      obtain ⟨f, hf⟩ : ∃ f, s.lc.sending = some f := Option.isSome_iff_exists.mp (by simpa using hsome)
      simp only [hf, Bool.and_eq_true, List.any_cons, List.any_nil, Bool.or_false, Bool.not_eq_true'] at hframe
      exact .inr ⟨f, e.content, by simpa using hline, hf, hattempt, hframe.1, (sendsEntry_iff s f e).mp hframe.2⟩
  · rintro (⟨hline, hsending, hnil⟩ | ⟨f, c, hline, hsending, hcons, hactive, hframe⟩)
    · obtain rfl : l = [] := by simpa [hattempt] using hnil
      simp [hline, hsending]
    · obtain ⟨e, rfl, rfl⟩ : ∃ e, l = [e] ∧ e.content = c := by
        rw [hattempt, List.map_eq_singleton_iff] at hcons
        exact hcons
      rcases hline with hline | hline <;> simp [hline, hsending, hactive, (sendsEntry_iff s f e).mpr hframe]

/-- The payload of a request entry is fixed at its placement (R142, R203). -/
theorem payloadOf_request (h : isRequest c = true) (s t : State) : payloadOf c s = payloadOf c t := by
  cases c <;> first | rfl | cases h

/-- On a line that is neither IDLE nor SENDING no attempt is under way (R163). -/
theorem State.AtRest.of_lawful (h : s.AtRest ∨ ∃ f c, s.Attempting f c) (hidle : s.lc.state ≠ .idle)
    (hsend : s.lc.state ≠ .sending) :
    s.AtRest := by
  rcases h with h | ⟨f, c, h⟩
  · exact h
  · exact absurd h.line (by simp [hidle, hsend])

/-- What leaves the line alone and carries the replica on carries the attempt on (R33). -/
theorem State.Attempting.carried (h : s.Attempting f c) (hl : s.LeavesLine t) (hreset : t.inReset = s.inReset)
    (hstation : t.station = s.station) (hgo : s.goesOn t) : t.Attempting f c := by
  obtain ⟨hsender, hkind, hflags, hpayload, hseq⟩ := h.frame
  refine ⟨by rw [hl.line]; exact h.line, by rw [hl.sending]; exact h.sending, by rw [hl.attempt]; exact h.attempt,
    by rw [hreset]; exact h.active, by rw [hstation]; exact hsender, hkind, hflags, fun hr => ?_, fun hv => ?_⟩
  · rw [hpayload hr, payloadOf_request hr s t]
  · rw [hgo.replica hv]
    refine hseq ?_
    rcases hgo with ⟨hparked, -⟩ | ⟨-, -, -, hvote⟩
    · rw [hparked] at hv; cases hv
    · cases hs : voting s.sc.state
      · rw [hvote hs] at hv; cases hv
      · rfl

/-! ### Frames, and everything else -/

/-- The commands of an accepted frame. -/
def frameOf : Instr → Option (Kind × Reading)
  | .claimFrame rd => some (.claim, rd)
  | .yieldFrame rd => some (.yield, rd)
  | .withdrawFrame rd => some (.withdraw, rd)
  | .evictFrame rd => some (.evict, rd)
  | .departFrame rd => some (.depart, rd)
  | .beaconFrame rd => some (.beacon, rd)
  | .syncAskFrame rd => some (.syncAsk, rd)
  | .pageFrame rd => some (.page, rd)
  | .enrolFrame rd => some (.enrol, rd)
  | .foundFrame rd => some (.found, rd)
  | _ => none

theorem exec_frameOf {i : Instr} {k : Kind} {rd : Reading} (hi : frameOf i = some (k, rd)) (h : exec i s = .next t) :
    t = acceptedFrame k rd s := by
  cases i <;> cases hi <;> cases h <;> rfl

/-- A command that is no accepted frame clears the collection and the replica with the voting, or carries them on. -/
theorem exec_goesOn {i : Instr} (hi : frameOf i = none) (h : exec i s = .next t) : s.goesOn t := by
  by_cases hview : leavesView i = true
  · obtain ⟨hsc, htc, hau⟩ := leavesView_keeps hview h
    exact State.goesOn_of_eq hsc htc hau
  cases i with
  | hardReset => cases h; exact .inl ⟨rfl, rfl, rfl⟩
  | configureCommand record => cases h; exact takeTransaction_goesOn (answerConfigure_goesOn record) s
  | joinCommand => cases h; exact takeTransaction_goesOn answerJoin_goesOn s
  | leaveCommand => cases h; exact takeTransaction_goesOn answerLeave_goesOn s
  | resetCommand => cases h; exact takeTransaction_goesOn (fun w => .inl (softReset_parked w)) s
  | claimCommand lock mode limit => cases h; exact takeTransaction_goesOn (answerClaim_goesOn lock mode limit) s
  | yieldCommand lock => cases h; exact takeTransaction_goesOn (onLock_goesOn lock yieldLock_goesOn) s
  | withdrawCommand lock => cases h; exact takeTransaction_goesOn (onLock_goesOn lock withdrawLock_goesOn) s
  | renewCommand lock => cases h; exact takeTransaction_goesOn (onLock_goesOn lock renewLock_goesOn) s
  | readLockCommand lock =>
    cases h
    refine takeTransaction_goesOn (fun w => ?_) s
    unfold answerReadLock
    split <;> exact w.goesOn_refl
  | readRosterCommand => cases h; exact takeTransaction_goesOn State.goesOn_refl s
  | readHoldsCommand => cases h; exact takeTransaction_goesOn State.goesOn_refl s
  | readNoticeCommand =>
    cases h
    refine takeTransaction_goesOn (fun w => ?_) s
    unfold answerReadNotice
    split <;> exact w.goesOn_refl
  | readStatusCommand => cases h; exact takeTransaction_goesOn (fun w => State.goesOn_of_eq rfl rfl rfl) s
  | unknownCommand code =>
    cases h
    split
    · exact takeTransaction_goesOn State.goesOn_refl s
    · exact s.goesOn_refl
  | unconfirmedStartBit =>
    cases h
    split
    · refine (State.goesOn_of_eq ?_ ?_ ?_).trans ((returnAttempt_goesOn _ true).trans (reportMute_goesOn _ _)) <;> simp
    · exact s.goesOn_refl
  | arbitrationLost =>
    cases h
    split
    · refine (State.goesOn_of_eq ?_ ?_ ?_).trans (returnAttempt_goesOn _ false) <;> simp
    · exact s.goesOn_refl
  | frameLost cells =>
    cases h
    (repeat' split) <;> try exact s.goesOn_refl
    refine (State.goesOn_of_eq ?_ ?_ ?_).trans (reportMute_goesOn _ _) <;> simp
  | frameVoided rd =>
    cases h
    (repeat' split) <;> try exact s.goesOn_refl
    · exact voidOwn_goesOn s _ rd
    · exact endReceived_goesOn s _ rd
  | stranding =>
    cases h
    split
    · exact drop_goesOn s _
    · exact s.goesOn_refl
  | foundingWait => cases h; exact foundingWait_goesOn s
  | roundTimeout => exact execRoundTimeout_goesOn h
  | _ => first | exact absurd rfl hview | cases hi

theorem takeTransaction_place {bytes : List Byte} {act : State → Answer}
    (hact : ∀ w : State, (act w).1.inReset = w.inReset ∧ (act w).1.station = w.station) (s : State) :
    (takeTransaction bytes act s).inReset = s.inReset ∧ (takeTransaction bytes act s).station = s.station := by
  unfold takeTransaction
  split
  · exact hact _
  · exact ⟨rfl, rfl⟩

theorem onLock_place {act : Lock → State → Answer} (lock : Byte)
    (hact : ∀ (l : Lock) (w : State), (act l w).1.inReset = w.inReset ∧ (act l w).1.station = w.station) (s : State) :
    (onLock lock act s).1.inReset = s.inReset ∧ (onLock lock act s).1.station = s.station := by
  unfold onLock
  (repeat' split) <;> first | exact hact _ s | exact ⟨rfl, rfl⟩

/-- Of the commands only a hard reset and its end touch the reset in progress and the station's number (R209). -/
theorem exec_place {i : Instr} (hi : i ≠ .hardReset) (hend : ∀ straps rate, i ≠ .hardResetEnd straps rate)
    (h : exec i s = .next t) :
    t.inReset = s.inReset ∧ t.station = s.station := by
  cases i with
  | configureCommand record =>
    cases h
    refine takeTransaction_place (fun w => ?_) s
    unfold answerConfigure
    (repeat' split) <;> exact ⟨rfl, rfl⟩
  | joinCommand =>
    cases h
    refine takeTransaction_place (fun w => ?_) s
    unfold answerJoin
    split <;> exact ⟨rfl, rfl⟩
  | leaveCommand =>
    cases h
    refine takeTransaction_place (fun w => ?_) s
    unfold answerLeave
    (repeat' split) <;> simp [answer, leaveBus, abandonJoin, purgeRequests]
  | claimCommand lock mode limit =>
    cases h
    refine takeTransaction_place (fun w => ?_) s
    unfold answerClaim
    split
    · exact ⟨rfl, rfl⟩
    · refine onLock_place lock (fun l w => ?_) w
      unfold claimLock
      (repeat' split) <;> simp [answer]
  | yieldCommand lock =>
    cases h
    refine takeTransaction_place (onLock_place lock fun l w => ?_) s
    unfold yieldLock
    (repeat' split) <;> simp [answer]
  | withdrawCommand lock =>
    cases h
    refine takeTransaction_place (onLock_place lock fun l w => ?_) s
    unfold withdrawLock
    (repeat' split) <;> simp [answer]
  | renewCommand lock =>
    cases h
    refine takeTransaction_place (onLock_place lock fun l w => ?_) s
    unfold renewLock
    (repeat' split) <;> simp [answer]
  | readLockCommand lock =>
    cases h
    refine takeTransaction_place (fun w => ?_) s
    unfold answerReadLock
    split <;> exact ⟨rfl, rfl⟩
  | readRosterCommand => cases h; exact takeTransaction_place (fun _ => ⟨rfl, rfl⟩) s
  | readHoldsCommand => cases h; exact takeTransaction_place (fun _ => ⟨rfl, rfl⟩) s
  | readNoticeCommand =>
    cases h
    refine takeTransaction_place (fun w => ?_) s
    unfold answerReadNotice
    split <;> exact ⟨rfl, rfl⟩
  | readStatusCommand => cases h; exact takeTransaction_place (fun _ => ⟨rfl, rfl⟩) s
  | unknownCommand code =>
    cases h
    split
    · exact takeTransaction_place (fun _ => ⟨rfl, rfl⟩) s
    · exact ⟨rfl, rfl⟩
  | hardReset => exact absurd rfl hi
  | hardResetEnd straps rate => exact absurd rfl (hend straps rate)
  | resetCommand => cases h; exact takeTransaction_place (fun w => by simp [answer, softReset]) s
  | _ => cases h; (repeat' split) <;> simp

/-! ### Moments of an attempt -/

/-- The first entry that satisfies p contends, and no other does. -/
theorem contendFirst_attempt {p : Entry → Bool} {e : Entry} (l : List Entry) (hrest : ∀ x ∈ l, x.contending = false)
    (hfind : l.find? p = some e) : ((contendFirst p l).filter (·.contending)).map (·.content) = [e.content] := by
  induction l with
  | nil => cases hfind
  | cons a l ih =>
    have hquiet : l.filter (·.contending) = [] := by
      simp only [List.filter_eq_nil_iff]
      exact fun x hx => by simp [hrest x (by simp [hx])]
    rw [List.find?_cons] at hfind
    cases hp : p a
    · rw [hp] at hfind
      simp [contendFirst, hp, hrest a (by simp), ih (fun x hx => hrest x (by simp [hx])) hfind]
    · rw [hp] at hfind
      cases hfind
      simp [contendFirst, hp, hquiet]

/-- A selection begins an attempt, or leaves none under way (R148, R149). -/
theorem selectEntry_attempts (h : s.AtRest) (hline : s.lc.state = .idle) (hactive : s.inReset = false) :
    (selectEntry s).AtRest ∨ ∃ f c, (selectEntry s).Attempting f c := by
  unfold selectEntry
  split
  next e hfind =>
    refine .inr ⟨composeFrame e s, e.content, .inl hline, rfl, ?_, hactive, rfl, rfl, rfl, fun hr => ?_, fun _ => rfl⟩
    · exact contendFirst_attempt _ (State.attempt_nil.mp h.attempt) hfind
    · exact payloadOf_request hr _ _
  next => exact .inl h

theorem startFrame_line (s : State) :
    (startFrame s).lc.state = (if (contendingEntry s).isSome then .sending else .receiving) ∧
    (startFrame s).lc.sending = s.lc.sending ∧ (startFrame s).attempt = s.attempt := by
  unfold startFrame
  dsimp only
  split <;> exact ⟨rfl, rfl, rfl⟩

theorem startFrame_countsLaw (h : s.CountsLaw) : (startFrame s).CountsLaw := by
  unfold startFrame
  dsimp only
  split <;> exact ⟨h.streak, h.ask, h.rx, h.tx, h.collisions, h.notices⟩

/-- At the start bit the attempt goes on the line, or another station's frame is received (R163, R165). -/
theorem startFrame_attempts (h : s.AtRest ∨ ∃ f c, s.Attempting f c) :
    (startFrame s).AtRest ∨ ∃ f c, (startFrame s).Attempting f c := by
  obtain ⟨hline, hsending, hattempt⟩ := startFrame_line s
  rcases h with h | ⟨f, c, h⟩
  · have hnone : contendingEntry s = none := contendingEntry_none.mpr h.attempt
    exact .inl ⟨by simp [hline, hnone], hsending.trans h.sending, hattempt.trans h.attempt⟩
  · obtain ⟨hsender, hkind, hflags, hpayload, hseq⟩ := h.frame
    have hsome : (contendingEntry s).isSome = true := by
      rw [Option.isSome_iff_ne_none, Ne, contendingEntry_none, h.attempt]
      simp
    refine .inr ⟨f, c, .inr (by simp [hline, hsome]), hsending.trans h.sending, hattempt.trans h.attempt, by simp [h.active],
      by simpa using hsender, hkind, hflags, fun hr => (hpayload hr).trans (payloadOf_request hr _ _), fun hv => ?_⟩
    rw [startFrame_state] at hv
    simpa using hseq hv

/-- The line changes state while no attempt is under way. -/
theorem State.AtRest.withLine (h : s.AtRest) (x : LineController) (hline : x.state ≠ .sending)
    (hsending : x.sending = s.lc.sending) : (s.withLc x).AtRest :=
  ⟨hline, hsending.trans h.sending, h.attempt⟩

theorem softReset_atRest (s : State) : (softReset s).AtRest :=
  ⟨by simp [softReset, clearFaults], by simp [softReset, clearFaults], by simp [softReset, State.attempt]⟩

theorem softReset_countsLaw (s : State) : (softReset s).CountsLaw := by
  refine ⟨by simp [softReset, ApplyUnit.cleared], by simp [softReset, StationController.reset], by simp [softReset, clearFaults],
    by simp [softReset, clearFaults], by simp [softReset, clearFaults], ?_⟩
  exact (stationNotice_tells _ _ _ _).notices (Nat.zero_le _)

/-! ### Every command -/

theorem exec_attempts {i : Instr} (hs : s.AtRest ∨ ∃ f c, s.Attempting f c) (h : exec i s = .next t) :
    t.AtRest ∨ ∃ f c, t.Attempting f c := by
  cases hi : lineEvent i
  · have hl := exec_leavesLine hi h
    rcases hs with hs | ⟨f, c, hs⟩
    · exact .inl (hs.leaves hl)
    · obtain ⟨hreset, hstation⟩ := exec_place (by rintro rfl; cases hi) (by rintro _ _ rfl; cases hi) h
      exact .inr ⟨f, c, hs.carried hl hreset hstation (exec_goesOn (by cases i <;> first | rfl | cases hi) h)⟩
  cases hf : frameOf i with
  | some x =>
    obtain ⟨k, rd⟩ := x
    rw [exec_frameOf hf h]
    rcases acceptedFrame_atRest k rd fun hline => State.AtRest.of_lawful hs (by simp [hline]) (by simp [hline]) with hsame | hrest
    · rwa [hsame]
    · exact .inl hrest
  | none =>
    cases i with
    | hardReset => cases h; exact .inl ⟨by simp [clearedByReset, LineController.reset], rfl, rfl⟩
    | hardResetEnd straps rate =>
      cases h
      split
      next hin =>
        rcases hs with hs | ⟨f, c, hs⟩
        · exact .inl ⟨hs.line, hs.sending, hs.attempt⟩
        · rw [hs.active] at hin; cases hin
      next => exact hs
    | resetCommand =>
      cases h
      unfold takeCommand takeTransaction
      split
      · have hrest := softReset_atRest (s.withHp ((codeOf .reset :: []).foldl receiveByte s.hp))
        exact .inl ⟨hrest.line, hrest.sending, hrest.attempt⟩
      · exact hs
    | busOpportunity =>
      cases h
      split
      next hopp =>
        simp only [opportune, Bool.and_eq_true, Bool.not_eq_true', beq_iff_eq, Option.isNone_iff_eq_none] at hopp
        obtain ⟨⟨⟨hactive, hline⟩, hnone⟩, -⟩ := hopp
        have hrest : s.AtRest := by
          rcases hs with hs | ⟨f, c, hs⟩
          · exact hs
          · rw [contendingEntry_none, hs.attempt] at hnone
            cases hnone
        exact selectEntry_attempts (hrest.leaves (revalidate_leavesLine s)) (by simpa using hline) (by simpa using hactive)
      next => exact hs
    | startBitConfirmed =>
      cases h
      split
      · exact startFrame_attempts hs
      · exact hs
    | unconfirmedStartBit =>
      cases h
      split
      next hidle =>
        refine .inl ((returnAttempt_atRest true ?_).leaves (reportMute_leavesLine _ _))
        rw [(countTransmit_leavesLine true s).line, hidle.2.1]
        simp
      next => exact hs
    | arbitrationLost =>
      cases h
      split
      · exact .inl (returnAttempt_atRest false (by simp [setLine]))
      · exact hs
    | frameLost cells =>
      cases h
      split
      next hrec =>
        have hrest : s.AtRest := State.AtRest.of_lawful hs (by simp [hrec.2]) (by simp [hrec.2])
        split
        · refine .inl ((State.AtRest.leaves (s := s.withLc { s.lc with state := .seeking, recessive := 0 }) ?_
            ((keepRead_leavesLine _ _).trans (countFault_leavesLine _ _))).leaves (reportMute_leavesLine _ _))
          exact hrest.withLine _ (by simp) rfl
        · exact hs
      next => exact hs
    | endFault =>
      cases h
      split
      next hclosing =>
        exact .inl ((State.AtRest.of_lawful hs (by simp [hclosing.2]) (by simp [hclosing.2])).withLine _ (by simp) rfl)
      next => exact hs
    | frameVoided rd =>
      cases h
      split
      · exact hs
      split
      · split
        · exact .inl (voidOwn_atRest _ rd s)
        · exact hs
      next hline => exact .inl (endReceived_atRest _ rd (State.AtRest.of_lawful hs (by simp [hline]) (by simp [hline])))
      next => exact hs
    | busIdle =>
      cases h
      split
      · exact hs
      split
      next hline => exact .inl ((State.AtRest.of_lawful hs (by simp [hline]) (by simp [hline])).withLine _ (by simp) rfl)
      next hline => exact .inl ((State.AtRest.of_lawful hs (by simp [hline]) (by simp [hline])).withLine _ (by simp) rfl)
      next => exact hs
    | _ => simp [lineEvent, frameOf] at hi hf

/-- Settles O56: an attempt begins at a selection, is carried on by every command that is no event of the line, and ends with its frame or
its void. -/
theorem attemptLawKept : Obligations.AttemptLawKept := by
  intro s t hs hstep
  rw [attemptLawful_iff] at hs ⊢
  rcases step_cases hstep with ⟨c, n, q, hexec⟩ | rfl
  · refine exec_attempts (s := { s with choices := n, pending := q }) ?_ hexec
    rcases hs with ⟨hline, hsending, hattempt⟩ | ⟨f, c, hline, hsending, hattempt, hactive, hframe⟩
    · exact .inl ⟨hline, hsending, hattempt⟩
    · exact .inr ⟨f, c, hline, hsending, hattempt, hactive, hframe⟩
  · have hl := passTime_leavesLine s
    rcases hs with hs | ⟨f, c, hs⟩
    · exact .inl (hs.leaves hl)
    · have hstate : (passTime s).sc.state = s.sc.state := by
        unfold passTime
        split <;> rfl
      exact .inr ⟨f, c, hs.carried hl (by simp) (by simp) (State.goesOn_of_eq hstate (by simp) (by simp))⟩

/-! ### The ranges of the transfer record -/

/-- The clauses of State.transferLawful (R28). -/
structure TransferRecord.Law (x : TransferRecord) : Prop where
  page : x.nextPage ≤ 16
  round : x.roundList.length ≤ 4
  pending : x.pendingList.length ≤ 4
  roundOnce : x.roundList.Nodup
  pendingOnce : x.pendingList.Nodup

theorem transferLawful_iff (s : State) : s.transferLawful = true ↔ s.au.replica.transfer.Law := by
  simp only [State.transferLawful, Bool.and_eq_true, decide_eq_true_eq]
  constructor
  · rintro ⟨⟨⟨⟨hpage, hround⟩, hpending⟩, hronce⟩, hponce⟩
    exact ⟨hpage, hround, hpending, hronce, hponce⟩
  · rintro ⟨hpage, hround, hpending, hronce, hponce⟩
    exact ⟨⟨⟨⟨hpage, hround⟩, hpending⟩, hronce⟩, hponce⟩

theorem TransferRecord.cleared_law : TransferRecord.cleared.Law := ⟨by decide, by decide, by decide, by decide, by decide⟩

theorem startRound_law (roster : StationSet) {x : TransferRecord} (h : x.Law) : (startRound roster x).Law :=
  ⟨Nat.zero_le _, h.pending, Nat.zero_le _, h.pendingOnce, List.nodup_nil⟩

theorem askRound_law (same : Bool) (m : Station) (roster : StationSet) {x : TransferRecord} (h : x.Law) :
    (askRound same m roster x).1.Law := by
  unfold askRound
  split
  · exact h
  next hroom =>
    simp only [Bool.or_eq_true, decide_eq_true_eq, not_or, not_le] at hroom
    obtain ⟨⟨-, hnew⟩, hlen⟩ := hroom
    have hadded : ({ x with pendingList := x.pendingList ++ [m] } : TransferRecord).Law := by
      refine ⟨h.page, h.round, ?_, h.roundOnce, ?_⟩
      · simpa using hlen
      · simpa [List.nodup_append] using ⟨h.pendingOnce, fun a ha hm => hnew (hm ▸ ha)⟩
    split
    · exact hadded
    · exact startRound_law roster hadded

/-- The end of a round needs no bound on the page (R48). -/
theorem endRound_law (roster : StationSet) {x : TransferRecord} (hpending : x.pendingList.length ≤ 4)
    (honce : x.pendingList.Nodup) : (endRound roster x).1.Law := by
  unfold endRound
  split
  · exact ⟨Nat.zero_le _, Nat.zero_le _, hpending, List.nodup_nil, honce⟩
  · exact ⟨Nat.zero_le _, hpending, Nat.zero_le _, honce, List.nodup_nil⟩

/-- A page that qualifies is the next one, so that only page 16 could pass the last page, and it ends the round (R47, R48). -/
theorem takePage_law {number : Nat} (roster : StationSet) {x : TransferRecord} (h : x.Law) (hnext : x.nextPage = number) :
    (takePage number roster x).1.Law := by
  unfold takePage
  dsimp only
  split
  · exact endRound_law roster h.pending h.pendingOnce
  next hlast =>
    have hpage := h.page
    exact ⟨show x.nextPage + 1 ≤ 16 by omega, h.round, h.pending, h.roundOnce, h.pendingOnce⟩

theorem leaveRound_law (m : Station) (roster : StationSet) {x : TransferRecord} (h : x.Law) :
    (leaveRound m roster x).1.Law := by
  have hround : (x.roundList.erase m).length ≤ 4 := (List.length_erase_le).trans h.round
  have hpending : (x.pendingList.erase m).length ≤ 4 := (List.length_erase_le).trans h.pending
  have hronce : (x.roundList.erase m).Nodup := h.roundOnce.erase m
  have hponce : (x.pendingList.erase m).Nodup := h.pendingOnce.erase m
  unfold leaveRound
  dsimp only
  split
  · split
    · exact ⟨Nat.zero_le _, hround, hpending, hronce, hponce⟩
    · exact ⟨Nat.zero_le _, Nat.zero_le _, Nat.zero_le _, List.nodup_nil, List.nodup_nil⟩
  · exact ⟨h.page, hround, hpending, hronce, hponce⟩

theorem applyKind_transferLaw (marks : Vector Bool 64) (same own : Bool) (f : Frame) {r : Replica} (h : r.transfer.Law) :
    (applyKind marks same own f r).1.transfer.Law := by
  unfold applyKind
  dsimp only
  split
  · exact h
  · exact h
  · exact h
  · split
    · exact leaveRound_law _ _ h
    · exact h
  · exact leaveRound_law _ _ h
  · exact h
  · exact askRound_law same _ _ h
  · split
    next hq =>
      simp only [pageQualifies, Bool.and_eq_true, beq_iff_eq] at hq
      exact takePage_law _ h hq.2
    next => exact h
  · (repeat' split) <;> exact h
  · exact h

theorem takeFrame_transferLaw (own : Bool) (f : Frame) (h : s.au.replica.transfer.Law) :
    (takeFrame own f s).1.au.replica.transfer.Law := by
  have hinstall : ∀ (w : State) rep, (installPage f.payload w rep).1.au.replica.transfer = w.au.replica.transfer :=
    fun w rep => by
      unfold installPage
      dsimp only
      split <;> rfl
  have happly := applyKind_transferLaw s.tc.uncollected (sameProfile s f.payload) own f h
  unfold takeFrame
  split
  · unfold applyFrame
    dsimp only
    (repeat' split) <;> simpa [hinstall, clearStreak] using happly
  · exact h
  · exact h

theorem State.parked.transferLaw (h : t.parked) : t.au.replica.transfer.Law := by
  rw [h.2.2]
  exact TransferRecord.cleared_law

theorem State.goesOn.transferLaw (h : s.goesOn t) (hs : s.au.replica.transfer.Law) : t.au.replica.transfer.Law := by
  rcases h with h | ⟨-, hau, -⟩
  · exact h.transferLaw
  · rwa [hau]

theorem handOn_transferLaw (rep : Report) (hs : s.au.replica.transfer.Law) : (handOn rep s).au.replica.transfer.Law := by
  rcases handOn_cases s rep with ⟨h, -⟩ | ⟨-, -, -, -, hau⟩
  · exact h.transferLaw hs
  · rwa [hau]

/-- A page 0 that R82 does not disregard has its lists within their bounds. -/
theorem readPageZero_lists {p : List Byte} {page : PageZero} (h : readPageZero p = some page) :
    page.roundList.length ≤ 4 ∧ page.roundList.Nodup ∧ page.pendingList.length ≤ 4 ∧ page.pendingList.Nodup := by
  unfold readPageZero at h
  dsimp only at h
  split at h
  · split at h
    next hwell =>
      cases h
      obtain ⟨-, -, -, -, hround, hronce, hpending, hponce⟩ := hwell
      exact ⟨hround, hronce, hpending, hponce⟩
    next => cases h
  · cases h

theorem observe_transferLaw (own : Bool) (f : Frame) (hs : s.au.replica.transfer.Law) :
    (observe own f s).au.replica.transfer.Law := by
  unfold observe
  split
  · split
    · exact (otherFound_parked _ _).transferLaw
    · exact (ask_parked _).transferLaw
  · (repeat' split)
    · simpa [found, founderReplica, Replica.cleared] using TransferRecord.cleared_law
    · exact (otherFound_parked _ _).transferLaw
    · exact hs
  · split
    · exact (enterState_parked s rfl).transferLaw
    · exact hs
  · split
    · unfold observePageZero
      (repeat' split)
      · exact hs
      next page hpage _ =>
        obtain ⟨hround, hronce, hpending, hponce⟩ := readPageZero_lists hpage
        exact ⟨Nat.le_of_ble_eq_true rfl, hround, hpending, hronce, hponce⟩
      · exact hs
      · exact hs
    · exact hs
  · exact hs

theorem acceptFrame_transferLaw (own : Bool) (f : Frame) (hs : s.au.replica.transfer.Law) :
    (acceptFrame own f s).au.replica.transfer.Law := by
  unfold acceptFrame
  split
  · have htaken := takeFrame_transferLaw own f hs
    dsimp only
    refine handOn_transferLaw _ ?_
    split
    · simpa using htaken
    · exact htaken
  · refine observe_transferLaw own f ?_
    split
    · simpa using hs
    · exact hs

theorem acceptedFrame_transferLaw (k : Kind) (rd : Reading) (hs : s.au.replica.transfer.Law) :
    (acceptedFrame k rd s).au.replica.transfer.Law := by
  unfold acceptedFrame
  (repeat' split) <;> try exact hs
  · exact acceptFrame_transferLaw true _ (by simpa using hs)
  · exact acceptFrame_transferLaw false _ ((endReceived_goesOn s _ rd).transferLaw hs)
  · exact (endReceived_goesOn s _ rd).transferLaw hs

theorem exec_transferLaw {i : Instr} (hs : s.au.replica.transfer.Law) (h : exec i s = .next t) :
    t.au.replica.transfer.Law := by
  cases hf : frameOf i with
  | none => exact (exec_goesOn hf h).transferLaw hs
  | some x =>
    obtain ⟨k, rd⟩ := x
    rw [exec_frameOf hf h]
    exact acceptedFrame_transferLaw k rd hs

/-! ### The ranges of the counts -/

theorem exec_countsLaw {i : Instr} (hs : s.CountsLaw) (h : exec i s = .next t) : t.CountsLaw := by
  have hline : ∀ x : LineController, x.rxFaults = s.lc.rxFaults → x.txFaults = s.lc.txFaults →
      x.collisions = s.lc.collisions → (s.withLc x).CountsLaw := fun x hrx htx hcollisions =>
    ⟨hs.streak, hs.ask, by simpa [hrx] using hs.rx, by simpa [htx] using hs.tx, by simpa [hcollisions] using hs.collisions,
      hs.notices⟩
  cases hi : lineEvent i
  · exact (exec_leavesLine hi h).counts hs
  cases hf : frameOf i with
  | some x =>
    obtain ⟨k, rd⟩ := x
    rw [exec_frameOf hf h]
    exact acceptedFrame_countsLaw k rd hs
  | none =>
    cases i with
    | hardReset => cases h; exact ⟨Nat.zero_le _, Nat.zero_le _, Nat.zero_le _, Nat.zero_le _, Nat.zero_le _, Nat.zero_le _⟩
    | hardResetEnd straps rate =>
      cases h
      split
      · exact ⟨hs.streak, hs.ask, hs.rx, hs.tx, hs.collisions, hs.notices⟩
      · exact hs
    | resetCommand =>
      cases h
      unfold takeCommand takeTransaction
      split
      · have hreset := softReset_countsLaw (s.withHp ((codeOf .reset :: []).foldl receiveByte s.hp))
        exact ⟨hreset.streak, hreset.ask, hreset.rx, hreset.tx, hreset.collisions, hreset.notices⟩
      · exact hs
    | busOpportunity =>
      cases h
      split
      · have hvalid := (revalidate_leavesLine s).counts hs
        unfold selectEntry
        split
        · exact ⟨hvalid.streak, hvalid.ask, hvalid.rx, hvalid.tx, hvalid.collisions, hvalid.notices⟩
        · exact hvalid
      · exact hs
    | startBitConfirmed =>
      cases h
      split
      · exact startFrame_countsLaw hs
      · exact hs
    | unconfirmedStartBit =>
      cases h
      split
      · exact (reportMute_leavesLine _ _).counts (returnAttempt_countsLaw true ((countTransmit_leavesLine true s).counts hs))
      · exact hs
    | arbitrationLost =>
      cases h
      split
      · exact returnAttempt_countsLaw false (hs.setLine .receiving)
      · exact hs
    | frameLost cells =>
      cases h
      (repeat' split) <;> try exact hs
      exact (((keepRead_leavesLine _ _).trans (countFault_leavesLine _ _)).trans (reportMute_leavesLine _ _)).counts
        (hline _ rfl rfl rfl)
    | endFault => cases h; split <;> exact hline _ rfl rfl rfl
    | frameVoided rd =>
      cases h
      (repeat' split) <;> try exact hs
      · exact voidOwn_countsLaw _ rd hs
      · exact endReceived_countsLaw _ rd hs
    | busIdle => cases h; (repeat' split) <;> exact hline _ rfl rfl rfl
    | _ => simp [lineEvent, frameOf] at hi hf

/-- Settles O60: frames and rounds keep the transfer record in range, and no count passes its limit. -/
theorem rangesKept : Obligations.RangesKept := by
  intro s t htransfer hcounts hstep
  rw [transferLawful_iff] at htransfer ⊢
  rw [State.countsLawful_iff] at hcounts ⊢
  rcases step_cases hstep with ⟨c, n, q, hexec⟩ | rfl
  · refine ⟨exec_transferLaw (s := { s with choices := n, pending := q }) htransfer hexec, exec_countsLaw ?_ hexec⟩
    exact ⟨hcounts.streak, hcounts.ask, hcounts.rx, hcounts.tx, hcounts.collisions, hcounts.notices⟩
  · exact ⟨by simpa using htransfer, (passTime_leavesLine s).counts hcounts⟩

end Sys2Proof.Machine
end

section
/-! PROOFS. The front command, the hard reset (R209), a voided frame (R151, R172, R175 to R177), and frames heard while joining
(R78 to R81). -/

namespace Sys2Proof.Machine

variable {s t : State} {rd : Reading} {f : Frame}

/-- Settles O1: the first branch of step. -/
theorem stepRunsFrontCommand : Obligations.StepRunsFrontCommand := by
  intro c rest s hq
  rw [step, hq]

/-! ### The hard reset -/

/-- Settles O4: after the assertion nothing is left that would drive an output; at the end the pins are filtered anew. -/
theorem hardResetClearsEveryBlock : Obligations.HardResetClearsEveryBlock := by
  refine ⟨fun s => ⟨clearedByReset s, rfl, rfl, ⟨fun n => ?_, rfl, rfl, rfl⟩, rfl, rfl, rfl, rfl, rfl, rfl, rfl, rfl, fun p => ?_,
    rfl, rfl, rfl⟩, fun s straps rate hin => ⟨_, ?_, fun p => tabulate_get _ p⟩⟩
  · simp [grantActive, clearedByReset, StationController.reset]
  · exact tabulate_get _ p
  · simp only [exec, execHardResetEnd, hin, if_true]
    rfl

/-! ### A voided frame -/

theorem muteHolds_iff (x : LineController) : muteHolds x = true ↔ x.mute := by
  simp [muteHolds, LineController.mute]

theorem mutes_false (h : voting s.sc.state = true → ¬ s.lc.mute) : mutes s = false := by
  rw [mutes, Bool.and_eq_false_imp]
  intro hv
  rw [Bool.eq_false_iff, Ne, muteHolds_iff]
  exact h hv

/-- A receive fault is counted on the Line Controller alone, in the voting states (R176). -/
theorem countFault_faulted (m : Option Station) (s : State) :
    countFault m s = s.withLc (countFault m s).lc ∧
    (countFault m s).lc.state = s.lc.state ∧ (countFault m s).lc.sending = s.lc.sending ∧
    (countFault m s).lc.txFaults = s.lc.txFaults ∧ (countFault m s).lc.collisions = s.lc.collisions ∧
    (voting s.sc.state = true → s.lc.faulted m (countFault m s).lc) ∧
    (voting s.sc.state = false → (countFault m s).lc.rxFaults = s.lc.rxFaults) := by
  unfold countFault
  cases hv : voting s.sc.state
  · exact ⟨rfl, rfl, rfl, rfl, rfl, (fun h => by cases h), fun _ => rfl⟩
  · cases m with
    | none =>
      refine ⟨rfl, rfl, rfl, rfl, rfl, fun _ => ⟨rfl, fun k => ?_, ?_⟩, fun h => by cases h⟩ <;>
        simp [LineController.faultedBy]
    | some a =>
      refine ⟨rfl, rfl, rfl, rfl, rfl, fun _ => ⟨rfl, fun k => ?_, ?_⟩, fun h => by cases h⟩
      · change (addStation s.lc.faultSenders a)[k] = true ↔ _
        rw [addStation_get]
        simp only [LineController.faultedBy, Option.some.injEq, Bool.or_eq_true, decide_eq_true_eq]
        exact or_congr_left eq_comm
      · simp [LineController.faultedBy]

theorem exec_frameVoided_receiving (hin : s.inReset = false) (hline : s.lc.state = .receiving) (rd : Reading) :
    exec (.frameVoided rd) s = .next (endReceived (receive rd) rd s) := by
  simp [exec, execFrameVoided, hin, hline]

theorem endReceived_clean (f : Frame) (rd : Reading) (s : State) :
    endReceived (.clean f) rd s = { s with lc := (endReceived (.clean f) rd s).lc } ∧
    (endReceived (.clean f) rd s).lc.state = .closing ∧ (endReceived (.clean f) rd s).lc.txFaults = s.lc.txFaults ∧
    (endReceived (.clean f) rd s).lc.collisions = s.lc.collisions ∧
    (voting s.sc.state = true → (endReceived (.clean f) rd s).lc.rxFaults = 0 ∧
      (endReceived (.clean f) rd s).lc.faultSenders = noStations ∧ (endReceived (.clean f) rd s).lc.faultUnknown = false) := by
  cases hv : voting s.sc.state
  · rw [endReceived_other s hv]
    exact ⟨rfl, rfl, rfl, rfl, fun h => by cases h⟩
  · rw [endReceived_voting s hv]
    exact ⟨rfl, rfl, rfl, rfl, fun _ => ⟨rfl, rfl, rfl⟩⟩

/-- A failed frame that does not mute the station is a receive fault and nothing more (R172, R176). -/
theorem endReceived_failed (m : Option Station) (rd : Reading) (s : State) : ∃ x : LineController,
    ((voting s.sc.state = true → ¬ x.mute) → endReceived (.failed m) rd s = { s with lc := x }) ∧
    x.state = .closing ∧ x.sending = s.lc.sending ∧ x.txFaults = s.lc.txFaults ∧ x.collisions = s.lc.collisions ∧
    (voting s.sc.state = true → s.lc.faulted m x) ∧ (voting s.sc.state = false → x.rxFaults = s.lc.rxFaults) := by
  obtain ⟨hall, hline, hsending, htx, hcollisions, hfaulted, hkept⟩ :=
    countFault_faulted m (setLine .closing (keepRead rd.cells s))
  refine ⟨(countFault m (setLine .closing (keepRead rd.cells s))).lc, fun hmute => ?_, hline, hsending, htx, hcollisions,
    hfaulted, hkept⟩
  have hquiet : mutes (countFault m (setLine .closing (keepRead rd.cells s))) = false :=
    mutes_false fun hv => hmute (by simpa using hv)
  rw [endReceived, reportMute, hquiet, if_neg (by simp), hall]
  rfl

/-- The one entry of an attempt, and the queue with it returned. -/
theorem returnContending_attempt_entry {before after : List Entry} {e : Entry} (n : Nat)
    (hq : s.oq.entries = before ++ e :: after) (he : e.contending = true)
    (hrest : ∀ x ∈ before ++ after, x.contending = false) :
    contendingEntry s = some e ∧
    (returnContending n s).oq.entries = before ++ { e with contending := false, voids := n } :: after := by
  have hmap : ∀ l : List Entry, (∀ x ∈ l, x.contending = false) →
      (l.map fun x => if x.contending then { x with contending := false, voids := n } else x) = l := fun l hl => by
    conv_rhs => rw [← List.map_id l]
    exact List.map_congr_left fun x hx => by simp [hl x hx]
  have hbefore : ∀ x ∈ before, x.contending = false := fun x hx => hrest x (by simp [hx])
  have hafter : ∀ x ∈ after, x.contending = false := fun x hx => hrest x (by simp [hx])
  constructor
  · have hnone : before.find? (·.contending) = none := List.find?_eq_none.mpr fun x hx => by simp [hbefore x hx]
    simp [contendingEntry, hq, List.find?_append, hnone, he]
  · simp only [returnContending, State.withEntries_oq, hq, List.map_append, List.map_cons, he, if_true]
    rw [hmap before hbefore, hmap after hafter]

/-- The void of an entry that is neither discarded, nor a request, nor abandoned: it goes back to QUEUED (R150, R151). -/
theorem returnAttempt_queued {before after : List Entry} {e : Entry} (hq : s.oq.entries = before ++ e :: after)
    (he : e.contending = true) (hrest : ∀ x ∈ before ++ after, x.contending = false) (hdiscard : e.discard = false)
    (hrequest : isRequest e.content = false) (hvoids : abandonable e.content = true → e.voids < 15) :
    returnAttempt true s = (s.withLc { s.lc with sending := none }).withEntries
      (before ++ { e with contending := false,
                          voids := if abandonable e.content then e.voids + 1 else e.voids } :: after) := by
  have hw : (s.withLc { s.lc with sending := none }).oq.entries = before ++ e :: after := hq
  obtain ⟨hentry, hback⟩ := returnContending_attempt_entry
    (if abandonable e.content then e.voids + 1 else e.voids) hw he hrest
  have hstay : (abandonable e.content && decide (16 ≤ if abandonable e.content then e.voids + 1 else e.voids)) = false := by
    cases ha : abandonable e.content
    · rfl
    · have hlt := hvoids ha
      simp
      omega
  simp only [returnAttempt, hentry, hdiscard, hrequest, Bool.true_and, hstay, Bool.false_eq_true, and_false, if_false]
  have hqueue : ∀ n (w : State), returnContending n w = w.withEntries (returnContending n w).oq.entries := fun _ _ => rfl
  rw [hqueue, hback, hdiscard]

/-- The line and the counts of a sender that has read its frame back as sent (R175, R177). -/
theorem sentCounts_clean (f : Frame) (l : List Cell) (s : State) : ∃ x : LineController,
    countTransmit false (countCollision false (setLine .closing (keepSent f l s))) = s.withLc x ∧
    x.state = .closing ∧ x.collisions = 0 ∧ x.txFaults = (if voting s.sc.state then 0 else s.lc.txFaults) ∧
    x.rxFaults = s.lc.rxFaults ∧ x.faultSenders = s.lc.faultSenders ∧ x.faultUnknown = s.lc.faultUnknown := by
  have hsc : (countCollision false (setLine .closing (keepSent f l s))).sc = s.sc := rfl
  unfold countTransmit
  rw [hsc]
  split <;> exact ⟨_, rfl, rfl, rfl, rfl, rfl, rfl, rfl⟩

/-- The void of a frame read back as sent, where the counts do not mute the station: the entry returns, and nothing is reported. -/
theorem voidOwn_clean (f : Frame) (s : State)
    (hmute : voting s.sc.state = true → ¬ ({ s.lc with txFaults := 0 } : LineController).mute) : ∃ x : LineController,
    voidOwn f (readingOf f) s = reportMute (mutes (s.withLc x)) (returnAttempt true (s.withLc x)) ∧
    mutes (s.withLc x) = false ∧ x.state = .closing ∧ x.collisions = 0 ∧
    x.txFaults = if voting s.sc.state then 0 else s.lc.txFaults := by
  obtain ⟨x, hx, hline, hcollisions, htx, hrx, hsenders, hunknown⟩ := sentCounts_clean f (readingOf f).cells s
  refine ⟨x, ?_, mutes_false fun hv => ?_, hline, hcollisions, htx⟩
  · simp only [voidOwn, collisionIn_self, mistransmitIn_self, hx]
    rfl
  · have hv' : voting s.sc.state = true := hv
    simpa [LineController.mute, htx, hv', hrx, hsenders, hunknown] using hmute hv'

/-- Settles O22: a receiver counts the frame and nothing else; its sender takes the entry back. -/
theorem frameVoidedAppliedByNone : Obligations.FrameVoidedAppliedByNone := by
  refine ⟨fun s rd hin hline => ⟨fun f hf => ?_, fun m hm => ?_⟩, ?_⟩
  · rw [exec_frameVoided_receiving hin hline, hf]
    exact ⟨_, rfl, endReceived_clean f rd s⟩
  · obtain ⟨x, hx, hrest⟩ := endReceived_failed m rd s
    refine ⟨x, fun hmute => ?_, hrest⟩
    rw [exec_frameVoided_receiving hin hline, hm, hx hmute]
  · rintro s f before after e ⟨hin, hline, hsending, -⟩ hq he hdiscard hrequest hrest hvoids hmute
    obtain ⟨x, hvoid, hquiet, hclosing, hcollisions, htx⟩ := voidOwn_clean f s hmute
    have hq' : (s.withLc x).oq.entries = before ++ e :: after := hq
    have hexec : exec (.frameVoided (readingOf f)) s = .next (voidOwn f (readingOf f) s) := by
      simp [exec, execFrameVoided, hin, hline, hsending]
    rw [hexec, hvoid, hquiet, reportMute, if_neg (by simp), returnAttempt_queued hq' he hrest hdiscard hrequest hvoids]
    exact ⟨_, rfl, rfl, rfl, hclosing, rfl, hcollisions, htx⟩

/-! ### Frames heard while joining -/

theorem ask_idle (h : voting s.sc.state = false) :
    (ask s).lc = s.lc ∧ (ask s).sc = s.sc.inState .asking ∧ (ask s).oq.entries = s.oq.entries ++ [newEntry .syncAsk] ∧
    (ask s).hp = s.hp ∧ (ask s).ri = s.ri := by
  refine ⟨?_, ?_, ?_, by simp, by simp⟩
  · simp [ask, enterState_lc, h, show voting .asking = false from rfl]
  · simp [ask, enterState_sc]
  · simp [ask, placeEntry, enterState_oq, h]

theorem giveUpJoin_idle (k : NoticeKind) (m : Option Station) (h : voting s.sc.state = false) :
    (giveUpJoin k m s).lc = s.lc ∧ (giveUpJoin k m s).sc = s.sc.inState .ready ∧ (giveUpJoin k m s).ri = s.ri ∧
    (giveUpJoin k m s).hp = s.hp.noticed [{ stationNoticeOf k with station := m }] := by
  refine ⟨?_, ?_, by simp, ?_⟩
  · simp [giveUpJoin, enterState_lc, h, show voting .ready = false from rfl]
  · simp [giveUpJoin, enterState_sc]
  · simp [giveUpJoin, stationNotice_hp, enterState_au, voting, stationNoticeOf, ApplyUnit.cleared, Replica.cleared]

/-- Another station's FOUND by its profile (R78, R80). -/
theorem otherFound_idle (f : Frame) (h : voting s.sc.state = false) :
    (otherFound f s).lc = s.lc ∧
    (sameProfile s f.payload = true → (otherFound f s).sc = s.sc.inState .asking ∧
      (otherFound f s).oq.entries = s.oq.entries ++ [newEntry .syncAsk] ∧ (otherFound f s).hp = s.hp ∧
      (otherFound f s).ri = s.ri) ∧
    (sameProfile s f.payload = false → (otherFound f s).sc = s.sc.inState .ready ∧ (otherFound f s).ri = s.ri ∧
      (otherFound f s).hp = s.hp.noticed [{ stationNoticeOf .joinRefused with station := some f.sender }]) := by
  unfold otherFound
  cases hp : sameProfile s f.payload
  · obtain ⟨glc, gsc, gri, ghp⟩ := giveUpJoin_idle .joinRefused (some f.sender) h
    exact ⟨glc, (fun h => by cases h), fun _ => ⟨gsc, gri, ghp⟩⟩
  · obtain ⟨alc, asc, aoq, ahp, ari⟩ := ask_idle h
    exact ⟨alc, fun _ => ⟨asc, aoq, ahp, ari⟩, fun h => by cases h⟩

/-- Settles O43: the branches of an observation, by the station state and the kind of the frame. -/
theorem joiningFramesHeard : Obligations.JoiningFramesHeard := by
  intro s rd f hears hv hwait
  refine ⟨_, (exec_frameCommand s f.kind rd).trans (congrArg _ (acceptedFrame_overhears s hears hv)), ?_⟩
  have hprofile : sameProfile (s.withLc (s.lc.overheard rd.cells)) f.payload = sameProfile s f.payload := rfl
  have hvw : voting (s.withLc (s.lc.overheard rd.cells)).sc.state = false := hv
  unfold observe
  cases hs : s.sc.state <;> simp only [State.withLc_sc, hs]
  case listen =>
    by_cases hk : f.kind = .found
    · obtain ⟨olc, osame, oother⟩ := otherFound_idle f hvw
      rw [hprofile] at osame oother
      rw [if_pos ⟨hk, trivial⟩]
      refine ⟨olc, fun _ hsame => osame (hsame.resolve_left (by simp [hk])), (fun h => by cases h), fun _ _ => oother, ?_⟩
      simp
    · obtain ⟨alc, asc, aoq, ahp, ari⟩ := ask_idle hvw
      rw [if_neg (by simp [hk])]
      refine ⟨alc, fun _ _ => ⟨asc, aoq, ahp, ari⟩, (fun h => by cases h), fun _ h => absurd h hk, ?_⟩
      simp
  case founding =>
    by_cases hk : f.kind = .found
    · obtain ⟨olc, osame, oother⟩ := otherFound_idle (s := cancelQueued (fun e => e.content == .found)
        (s.withLc (s.lc.overheard rd.cells))) f (by simpa using hvw)
      have hcancelled : sameProfile (cancelQueued (fun e => e.content == .found) (s.withLc (s.lc.overheard rd.cells))) f.payload
          = sameProfile s f.payload := rfl
      rw [hcancelled] at osame oother
      rw [if_pos hk, if_neg (by simp)]
      refine ⟨olc, (fun h => by cases h), fun _ _ hsame => ?_, fun _ _ => oother, ?_⟩
      · obtain ⟨osc, ooq, ohp, ori⟩ := osame hsame
        exact ⟨osc, ohp, ori, ooq⟩
      · simp [hk]
    · rw [if_neg hk]
      refine ⟨rfl, (fun h => by cases h), fun _ h => absurd h hk, fun _ h => absurd h hk, fun _ => rfl⟩
  case asking =>
    rw [if_neg (by simp)]
    exact ⟨rfl, (fun h => by cases h), (fun h => by cases h), (fun h => by simp at h), fun _ => rfl⟩
  case unconfigured => exact ⟨rfl, (fun h => by cases h), (fun h => by cases h), (fun h => by simp at h), fun _ => rfl⟩
  case ready => exact ⟨rfl, (fun h => by cases h), (fun h => by cases h), (fun h => by simp at h), fun _ => rfl⟩
  case waitRound => exact absurd hs hwait
  all_goals rw [hs] at hv; cases hv

end Sys2Proof.Machine
end

section
/-! PROOFS. A page 0 heard in WAIT_ROUND (R82, R84, R204). -/

namespace Sys2Proof.Machine

variable {s t : State} {rd : Reading} {f : Frame}

/-! ### The bytes of a page 0 -/

/-- A clean frame has passed the length-matches-kind check (R168). -/
theorem receive_clean_length (h : receive rd = .clean f) : lengthMatches f.kind f.payload = true := by
  unfold receive at h
  split at h
  · split at h
    · unfold receiveCells at h
      dsimp only at h
      split at h
      · split at h
        next hchecks =>
          cases h
          simp only [Bool.and_eq_true] at hchecks
          obtain ⟨⟨⟨-, hlength⟩, -⟩, -⟩ := hchecks
          exact hlength
        next => cases h
      · cases h
    · cases h
  all_goals cases h

/-- A clean page 0 has the size that its counts say (R205). -/
theorem receive_pageZero_sized (h : receive rd = .clean f) (hk : f.kind = .page) (hz : byteAt f.payload 1 = 0) :
    pageZeroSized f.payload = true := by
  have hlength := receive_clean_length h
  rw [hk] at hlength
  unfold lengthMatches at hlength
  dsimp only at hlength
  split at hlength
  next number _ heq =>
    have hn : number = 0 := by rw [heq] at hz; exact hz
    rwa [if_pos hn] at hlength
  next => cases hlength

/-- The counts of a page 0 within their bounds, and its length (R204). -/
theorem pageZeroSized_iff (p : List Byte) : pageZeroSized p = true ↔
    (byteAt p 3).toNat ≤ 32 ∧ (byteAt p (4 + (byteAt p 3).toNat)).toNat ≤ 4 ∧
    (byteAt p (5 + (byteAt p 3).toNat + (byteAt p (4 + (byteAt p 3).toNat)).toNat)).toNat ≤ 4 ∧
    p.length = 6 + (byteAt p 3).toNat + (byteAt p (4 + (byteAt p 3).toNat)).toNat
      + (byteAt p (5 + (byteAt p 3).toNat + (byteAt p (4 + (byteAt p 3).toNat)).toNat)).toNat := by
  simp [pageZeroSized, and_assoc]

theorem take_append_byteAt {p : List Byte} {a n : Nat} (h : a + n < p.length) :
    p.drop a = (p.drop a).take n ++ byteAt p (a + n) :: p.drop (a + n + 1) := by
  have hget : byteAt p (a + n) = p[a + n] := by simp [byteAt, List.getD_eq_getElem?_getD, h]
  conv_lhs => rw [← List.take_append_drop n (p.drop a), List.drop_drop, List.drop_eq_getElem_cons h]
  rw [hget]

/-- A page 0 of the size its counts say is laid out as a page 0 (R204). -/
theorem pageZeroSized_layout {p : List Byte} (hsized : pageZeroSized p = true) (hz : byteAt p 1 = 0) :
    p = [byteAt p 0, 0, byteAt p 2, BitVec.ofNat 8 (pageZeroMembers p).length] ++ pageZeroMembers p
      ++ [BitVec.ofNat 8 (pageZeroRound p).length] ++ pageZeroRound p
      ++ [BitVec.ofNat 8 (pageZeroPending p).length] ++ pageZeroPending p := by
  obtain ⟨hm, hr, hk, hlength⟩ := (pageZeroSized_iff p).mp hsized
  have hmembers : (pageZeroMembers p).length = (byteAt p 3).toNat := by
    simp only [pageZeroMembers, List.length_take, List.length_drop]
    omega
  have hround : (pageZeroRound p).length = (byteAt p (4 + (byteAt p 3).toNat)).toNat := by
    simp only [pageZeroRound, List.length_take, List.length_drop]
    omega
  have hpending : pageZeroPending p = p.drop (6 + (byteAt p 3).toNat + (byteAt p (4 + (byteAt p 3).toNat)).toNat) := by
    simp only [pageZeroPending]
    exact List.take_of_length_le (by rw [List.length_drop]; omega)
  have hpendings : (pageZeroPending p).length
      = (byteAt p (5 + (byteAt p 3).toNat + (byteAt p (4 + (byteAt p 3).toNat)).toNat)).toNat := by
    rw [hpending, List.length_drop]
    omega
  have hhead : p = [byteAt p 0, byteAt p 1, byteAt p 2, byteAt p 3] ++ p.drop 4 := by
    rcases p with _ | ⟨a, _ | ⟨b, _ | ⟨c, _ | ⟨d, p⟩⟩⟩⟩
    case cons.cons.cons.cons => rfl
    all_goals simp at hlength; omega
  have hfirst := take_append_byteAt (p := p) (a := 4) (n := (byteAt p 3).toNat) (by omega)
  have hsecond := take_append_byteAt (p := p) (a := 5 + (byteAt p 3).toNat)
    (n := (byteAt p (4 + (byteAt p 3).toNat)).toNat) (by omega)
  conv_lhs => rw [hhead, hfirst, show 4 + (byteAt p 3).toNat + 1 = 5 + (byteAt p 3).toNat by omega, hsecond]
  rw [hmembers, hround, hpendings, hpending, hz]
  simp [pageZeroMembers, pageZeroRound,
    show ∀ m r : Nat, 5 + m + r + 1 = 6 + m + r by omega]

/-- The read of a page 0 laid out with its counts: the page where R82's checks hold, and none where one fails. -/
theorem readPageZero_layout {p : List Byte} {round feeder : Byte} {members rounds pendings : List Byte} {wellFormed : Prop}
    (hp : p = [round, 0, feeder, BitVec.ofNat 8 members.length] ++ members ++ [BitVec.ofNat 8 rounds.length] ++ rounds
      ++ [BitVec.ofNat 8 pendings.length] ++ pendings)
    (hshort : p.length < 256)
    (hwell : wellFormed ↔ ((∀ b ∈ feeder :: members ++ rounds ++ pendings, b.toNat ≤ 31) ∨ Config.foreignPageRead p = true) ∧
      1 ≤ members.length ∧ members.length ≤ 32 ∧ (members.map stationOfByte).Nodup ∧
      stationOfByte feeder ∈ members.map stationOfByte ∧ rounds.length ≤ 4 ∧ (rounds.map stationOfByte).Nodup ∧
      pendings.length ≤ 4 ∧ (pendings.map stationOfByte).Nodup) :
    (wellFormed → readPageZero p = some
      { round := round, feeder := stationOfByte feeder, members := members.map stationOfByte,
        roundList := rounds.map stationOfByte, pendingList := pendings.map stationOfByte }) ∧
    (¬ wellFormed → readPageZero p = none) := by
  have hlength : p.length = 6 + members.length + rounds.length + pendings.length := by
    rw [hp]
    simp
    omega
  obtain ⟨-, -, hmembers, hrounds, hpendings⟩ := pageZero_fields (p := p) (a := round) (b := 0) (c := feeder)
    (countByte_toNat (n := members.length) (by omega)) (countByte_toNat (n := rounds.length) (by omega))
    (countByte_toNat (n := pendings.length) (by omega)) (by rw [hp]; simp)
  have hround : byteAt p 0 = round := by rw [hp]; rfl
  have hfeeder : byteAt p 2 = feeder := by rw [hp]; rfl
  have hsmall : ((feeder :: (members ++ rounds ++ pendings)).all (fun b => decide (b.toNat < 32)) || Config.foreignPageRead p)
      = true ↔ (∀ b ∈ feeder :: members ++ rounds ++ pendings, b.toNat ≤ 31) ∨ Config.foreignPageRead p = true := by
    simp [Nat.lt_succ_iff, or_imp, forall_and]
  unfold readPageZero
  simp only [hmembers, hrounds, hpendings, hround, hfeeder, hsmall, List.length_map]
  rw [hwell]
  constructor
  · rintro ⟨hread, hlists⟩
    rw [if_pos hread, if_pos hlists]
  · intro hnot
    split
    next hread => exact if_neg fun hlists => hnot ⟨hread, hlists⟩
    next => rfl

/-! ### The start of a collection -/

theorem observePageZero_none (h : readPageZero f.payload = none) : observePageZero f s = s := by
  rw [observePageZero, h]

/-- Where the station stands in a well-formed page 0 (R82). -/
theorem observePageZero_some {page : PageZero} (h : readPageZero f.payload = some page) :
    (s.station ∈ page.roundList → observePageZero f s = enterCollecting f.busSeq page s) ∧
    (s.station ∉ page.roundList → s.station ∈ page.pendingList →
      observePageZero f s = s.withSc { s.sc with roundTimer := 0 }) ∧
    (s.station ∉ page.roundList → s.station ∉ page.pendingList → observePageZero f s = s) := by
  rw [observePageZero, h]
  exact ⟨fun hr => if_pos hr, fun hr hp => (if_neg hr).trans (if_pos hp), fun hr hp => (if_neg hr).trans (if_neg hp)⟩

/-- The replica, the collection and the ask count of a station that begins to collect (R30, R84). -/
theorem enterCollecting_begins (q : BusSeq) (page : PageZero) (hv : voting s.sc.state = false) :
    (enterCollecting q page s).sc = { s.sc.inState .collecting with askCount := 0 } ∧
    (enterCollecting q page s).au.streakCount = 0 ∧ (enterCollecting q page s).au.replica.busSeq = q + 1 ∧
    (∀ m : Station, (enterCollecting q page s).au.replica.roster[m] = decide (m ∈ page.members)) ∧
    (∀ l : Lock, (enterCollecting q page s).au.replica.table[l] = .cleared ∧
      (enterCollecting q page s).tc.uncollected[l] = true) ∧
    (enterCollecting q page s).tc.collected = 0 ∧
    (enterCollecting q page s).au.replica.transfer = { running := true, feeder := page.feeder, round := page.round, nextPage := 1,
                                                       roundList := page.roundList, pendingList := page.pendingList } ∧
    (enterCollecting q page s).hp = s.hp ∧ (enterCollecting q page s).ri = s.ri := by
  have hc : voting .collecting = true := rfl
  unfold enterCollecting
  refine ⟨?_, ?_, rfl, fun m => setOfList_get _ m, fun l => ⟨?_, ?_⟩, rfl, rfl, ?_, ?_⟩
  · simp [enterState_sc]
  · simp [enterState_au, hc, hv, clearStreak]
  all_goals simp

/-- Settles O44: the page is read back from its bytes, and the station looks for itself in its two lists. -/
theorem pageZeroHeard : Obligations.PageZeroHeard := by
  refine ⟨stationOfByte, Config.foreignPageRead, stationOfByte_stationByte, fun s rd f hears hs => ?_⟩
  have hv : voting s.sc.state = false := by rw [hs]; rfl
  refine ⟨_, (exec_frameCommand s f.kind rd).trans (congrArg _ (acceptedFrame_overhears s hears hv)), ?_, ?_, ?_⟩
  · intro h
    have hnot : ¬ (f.kind = .page ∧ byteAt f.payload 1 = 0) := fun ⟨hk, hz⟩ => h.elim (absurd hk) (absurd hz)
    simp only [observe, State.withLc_sc, hs, if_neg hnot]
    rfl
  · intro hk hz
    exact ⟨_, _, _, _, _, pageZeroSized_layout (receive_pageZero_sized hears.2.2 hk hz) hz⟩
  · intro round feeder members rounds pendings hk hp wellFormed hwell
    have hz : byteAt f.payload 1 = 0 := by rw [hp]; rfl
    have hshort : f.payload.length < 256 := by
      obtain ⟨hm, hr, hk, hlength⟩ := (pageZeroSized_iff _).mp (receive_pageZero_sized hears.2.2 hk hz)
      omega
    obtain ⟨hsome, hnone⟩ := readPageZero_layout hp hshort hwell
    have hobserve : observe false f (s.withLc (s.lc.overheard rd.cells))
        = observePageZero f (s.withLc (s.lc.overheard rd.cells)) := by
      simp only [observe, State.withLc_sc, hs, if_pos (And.intro hk hz)]
    rw [hobserve]
    refine ⟨fun h => observePageZero_none (hnone h), fun h => ?_⟩
    obtain ⟨hround, hpending, hneither⟩ := observePageZero_some (s := s.withLc (s.lc.overheard rd.cells)) (hsome h)
    refine ⟨fun hr hp => hneither hr hp, fun hr hp => hpending hr hp, fun hr => ?_⟩
    rw [hround hr]
    exact enterCollecting_begins f.busSeq _ hv

end Sys2Proof.Machine
end

section
/-! PROOFS. Frames at a voting receiver that are set aside (R34, R36, R39, R40, R44) and that change the transfer record at most (R41,
R45 to R48). -/

namespace Sys2Proof.Machine

variable {s t : State} {rd : Reading} {f : Frame}

/-! ### A frame that is not applied -/

theorem keepFeeding_queue (s : State) : keepFeeding s = { s with oq := (keepFeeding s).oq } := by
  unfold keepFeeding
  (repeat' split) <;> rfl

/-- The Station Controller on a frame of another station that is not applied: a complete streak alone moves it (R40). -/
theorem stationReport_setAside (f : Frame) (d : Disposition) (desync : Bool)
    (hc : s.sc.state = .collecting → s.tc.collected ≤ 15) :
    stationReport { plainReport false f d with desync := desync } s = if desync then drop .desync s else s := by
  have hcalm : stationReport (plainReport false f d) s = s :=
    stationReport_calm s (by simp [Report.plain, plainReport]) rfl hc
  have hsplit : stationReport { plainReport false f d with desync := desync } s
      = if desync then drop .desync (stationReport (plainReport false f d) s) else stationReport (plainReport false f d) s := by
    cases desync <;> rfl
  rw [hsplit, hcalm]

/-- A frame set aside without a change: the queue alone is looked after (R34, R36). -/
theorem acceptFrame_unchanged (h : s.receives rd f)
    (hd : dispositionOf s.au.replica f = .ignored ∨ dispositionOf s.au.replica f = .outsiderMember) :
    exec (frameCommand f.kind rd) s = .next (keepFeeding (s.withLc (s.lc.heard rd.cells))) := by
  have hv : voting (s.withLc (s.lc.heard rd.cells)).sc.state = true := h.2.1
  have htaken : ∃ d : Disposition, d ≠ .applied ∧
      takeFrame false f (s.withLc (s.lc.heard rd.cells)) = (s.withLc (s.lc.heard rd.cells), plainReport false f d) := by
    unfold takeFrame
    obtain hd | hd := hd
    · exact ⟨.ignored, by simp, by simp [hd]⟩
    · exact ⟨.outsiderMember, by simp, by simp [hd]⟩
  obtain ⟨d, hne, htaken⟩ := htaken
  have hnot : (plainReport false f d).disposition ≠ .applied := hne
  have hstation := stationReport_setAside (s := s.withLc (s.lc.heard rd.cells)) f d false h.2.2
  rw [if_neg (by simp)] at hstation
  rw [exec_frameCommand, acceptedFrame_receives s h, acceptFrame, if_pos hv, htaken]
  simp only [Bool.false_eq_true, if_false, handOn, if_neg hnot, reactOther]
  rw [if_neg (by simp [plainReport])]
  exact congrArg _ (congrArg keepFeeding hstation)

theorem keepFeeding_heard (s : State) (rd : Reading) :
    keepFeeding (s.withLc (s.lc.heard rd.cells))
      = { s with lc := s.lc.heard rd.cells, oq := (keepFeeding (s.withLc (s.lc.heard rd.cells))).oq } ∧
    s.sameLocks (keepFeeding (s.withLc (s.lc.heard rd.cells))) := by
  refine ⟨keepFeeding_queue _, by simp, by simp, by simp, by simp, ?_⟩
  rw [keepFeeding_kept]
  rfl

theorem outsiderStreak_senders (k : Station) (a : ApplyUnit) (m : Station) :
    (outsiderStreak k a).streakSenders[m] = (decide (m = k) || a.streakSenders[m]) := by
  rw [outsiderStreak, addStation_get, decide_eq_decide.mpr eq_comm]

/-- The state with an outsider frame by sequence entered in its streak (R39). -/
def State.streaked (s : State) (rd : Reading) (f : Frame) : State :=
  (s.withLc (s.lc.heard rd.cells)).withAu (outsiderStreak f.sender s.au)

/-- Two stations are in a set that counts 2. -/
theorem two_le_countOf (m : StationSet) : 2 ≤ countOf m ↔ ∃ a b : Station, a ≠ b ∧ m[a] = true ∧ m[b] = true := by
  have hnodup := stationsOf_nodup m
  constructor
  · intro h
    unfold countOf at h
    match hl : stationsOf m with
    | [] => simp [hl] at h
    | [_] => simp [hl] at h
    | a :: b :: rest =>
      rw [hl] at hnodup
      have hab : a ≠ b := fun hab => by simp [hab] at hnodup
      exact ⟨a, b, hab, by rw [← mem_stationsOf, hl]; simp, by rw [← mem_stationsOf, hl]; simp⟩
  · rintro ⟨a, b, hab, ha, hb⟩
    have hsub : [a, b] ⊆ stationsOf m := by
      intro x hx
      rcases List.mem_pair.mp hx with rfl | rfl <;> rwa [mem_stationsOf]
    exact (List.subperm_of_subset (by simpa using hab) hsub).length_le

/-- The streak that the frame completes is the desync condition (R40). -/
theorem streakDesyncs_iff (s : State) (f : Frame) :
    streakDesyncs s.station s.au.replica.roster (outsiderStreak f.sender s.au).streakCount
      (outsiderStreak f.sender s.au).streakSenders = true ↔ s.desyncs f := by
  have hsender : ∀ a : Station, (outsiderStreak f.sender s.au).streakSenders[a] = true
      ↔ a = f.sender ∨ s.au.streakSenders[a] = true := fun a => by
    rw [outsiderStreak_senders, Bool.or_eq_true, decide_eq_true_eq]
  have hcount : ((outsiderStreak f.sender s.au).streakCount == 3) = true ↔ 2 ≤ s.au.streakCount := by
    simp only [outsiderStreak, beq_iff_eq]
    omega
  have hothers : (!((stationsOf s.au.replica.roster).filter (· ≠ s.station)).isEmpty) = true
      ↔ ∃ a : Station, a ≠ s.station ∧ s.au.replica.roster[a] = true := by
    rw [Bool.not_eq_true', List.isEmpty_eq_false_iff_exists_mem]
    simp [and_comm]
  have hall : (((stationsOf s.au.replica.roster).filter (· ≠ s.station)).all
        fun a => (outsiderStreak f.sender s.au).streakSenders[a]) = true
      ↔ ∀ a : Station, a ≠ s.station → s.au.replica.roster[a] = true → a = f.sender ∨ s.au.streakSenders[a] = true := by
    rw [List.all_eq_true]
    refine forall_congr' fun a => ?_
    rw [List.mem_filter, mem_stationsOf, hsender, decide_eq_true_eq]
    tauto
  simp only [streakDesyncs, State.desyncs, Bool.and_eq_true, Bool.or_eq_true, hcount, hothers, hall, decide_eq_true_eq,
    two_le_countOf, hsender]

/-- A frame at another bus sequence: the streak advances, and drops the station when it is complete (R34, R39, R40). -/
theorem acceptFrame_outOfStep (h : s.receives rd f) (hd : dispositionOf s.au.replica f = .outsiderSequence) :
    (s.desyncs f → exec (frameCommand f.kind rd) s = .next (keepFeeding (drop .desync (s.streaked rd f)))) ∧
    (¬ s.desyncs f → exec (frameCommand f.kind rd) s = .next (keepFeeding (s.streaked rd f))) := by
  have hv : voting (s.withLc (s.lc.heard rd.cells)).sc.state = true := h.2.1
  generalize hb : streakDesyncs s.station s.au.replica.roster (outsiderStreak f.sender s.au).streakCount
    (outsiderStreak f.sender s.au).streakSenders = b
  have htaken : takeFrame false f (s.withLc (s.lc.heard rd.cells))
      = (s.streaked rd f, { plainReport false f .outsiderSequence with desync := b }) := by
    simp [takeFrame, hd, ← hb, State.streaked]
  have hexec : exec (frameCommand f.kind rd) s
      = .next (keepFeeding (if b then drop .desync (s.streaked rd f) else s.streaked rd f)) := by
    rw [exec_frameCommand, acceptedFrame_receives s h, acceptFrame, if_pos hv, htaken,
      ← stationReport_setAside (s := s.streaked rd f) f .outsiderSequence b h.2.2]
    rfl
  rw [← streakDesyncs_iff, hb, hexec]
  cases b <;> simp

/-- The disposition of a frame other than FOUND and SYNC_ASK that is not in step (R34). -/
theorem dispositionOf_outsider (hfound : f.kind ≠ .found) (hask : f.kind ≠ .syncAsk) (r : Replica) :
    (f.busSeq ≠ r.busSeq → dispositionOf r f = .outsiderSequence) ∧
    (f.busSeq = r.busSeq → f.kind ≠ .enrol → r.roster[f.sender] = false → dispositionOf r f = .outsiderMember) := by
  unfold dispositionOf
  cases hk : f.kind
  case found => exact absurd hk hfound
  case syncAsk => exact absurd hk hask
  case enrol => exact ⟨fun h => if_neg h, fun _ h => absurd rfl h⟩
  all_goals exact ⟨fun h => if_neg h, fun h _ hr => (if_pos h).trans (if_neg (by simpa using hr))⟩

theorem dropState_desync (s : State) :
    dropState .desync s = if autoRejoin s = true ∧ s.sc.state ≠ .departing then .listen else .ready := by
  simp [dropState, rejoinsAfter]

/-- Settles O38: by the frame's bus sequence, its sender's membership and the streak. -/
theorem outsiderFramesSetAside : Obligations.OutsiderFramesSetAside := by
  intro s rd f h hfound hask
  obtain ⟨hsequence, hmember⟩ := dispositionOf_outsider hfound hask s.au.replica
  obtain ⟨t, hexec⟩ : ∃ t, exec (frameCommand f.kind rd) s = .next t := ⟨_, exec_frameCommand s f.kind rd⟩
  refine ⟨t, hexec, fun hq hk hr => ?_, fun hq => ⟨fun hno => ?_, fun hyes => ?_⟩⟩
  · rw [acceptFrame_unchanged h (.inr (hmember hq hk hr))] at hexec
    cases hexec
    exact keepFeeding_heard s rd
  · rw [(acceptFrame_outOfStep h (hsequence hq)).2 hno] at hexec
    cases hexec
    refine ⟨?_, ⟨by simp [State.streaked], by simp [State.streaked], by simp [State.streaked], by simp [State.streaked], ?_⟩,
      ?_, ?_, fun m => ?_⟩
    · rw [keepFeeding_queue]
      rfl
    · rw [keepFeeding_kept]
      rfl
    · simp [State.streaked, outsiderStreak]
    · simp [State.streaked, outsiderStreak]
    · simpa [State.streaked] using outsiderStreak_senders f.sender s.au m
  · rw [(acceptFrame_outOfStep h (hsequence hq)).1 hyes] at hexec
    cases hexec
    have hv : voting (s.streaked rd f).sc.state = true := h.2.1
    obtain ⟨hoff, hhp, hsc, -⟩ := drop_dropped (s.streaked rd f) .desync hv
    have hstate : (drop .desync (s.streaked rd f)).sc.state = dropState .desync (s.streaked rd f) := by rw [hsc]; rfl
    refine ⟨hoff.fed (by rw [hstate]; exact (dropState_idle _ _).1), ?_, ?_⟩
    · have hfed : (keepFeeding (drop .desync (s.streaked rd f))).hp = (drop .desync (s.streaked rd f)).hp := by simp
      exact hfed.trans hhp
    · have hfed : (keepFeeding (drop .desync (s.streaked rd f))).sc = (drop .desync (s.streaked rd f)).sc := by simp
      rw [hfed, hstate]
      exact dropState_desync (s.streaked rd f)

/-! ### A frame that changes the transfer record at most -/

/-- The report of an applied frame with transfer events. -/
def transferReport (own : Bool) (f : Frame) (events : List TransferEvent) : Report :=
  { plainReport own f .applied with events := events }

theorem transferReport_plain (own : Bool) {events : List TransferEvent}
    (h : .roundRestarted ∉ events ∧ .roundDissolved ∉ events) : (transferReport own f events).plain := by
  simp [transferReport, plainReport, Report.plain, h]

/-- Such a frame at a receiver: the record as applied, and everything else as a heard frame leaves it. -/
theorem transferFrame_received {x : TransferRecord} {events : List TransferEvent} (h : s.receives rd f)
    (hd : dispositionOf s.au.replica f = .applied)
    (happly : applyKind s.tc.uncollected (sameProfile s f.payload) false f s.au.replica
      = ({ s.au.replica with transfer := x }, transferReport false f events))
    (hcalm : .roundRestarted ∉ events ∧ .roundDissolved ∉ events)
    (hpage : s.sc.state = .collecting → takesLockPage (transferReport false f events) = false) :
    ∃ t, exec (frameCommand f.kind rd) s = .next t ∧ s.followed t rd f ∧ s.sameLocks t ∧
      t.au = .after { s.au.replica with transfer := x } ∧
      (x.running = true → x.feeder = s.station → present s.sc.state = true → ∃ e ∈ t.oq.entries, e.content = .page) := by
  have hexec := acceptFrame_applied s h hd (by rw [happly]; exact hpage)
  rw [happly] at hexec
  have hplain := transferReport_plain (f := f) false hcalm
  obtain ⟨hfollowed, hau⟩ := handOn_followed h (.after { s.au.replica with transfer := x }) hplain rfl rfl rfl
  refine ⟨_, hexec, hfollowed, handOn_sameLocks h _ hplain rfl rfl (by simp [transferReport, plainReport]), hau, ?_⟩
  intro hrun hfeeder hpresent
  obtain ⟨-, -, -, -, -, -, -, -, -, -, -, hfed⟩ := handOn_plain
    ((s.withLc (s.lc.heard rd.cells)).withAu (.after { s.au.replica with transfer := x })) hplain rfl rfl h.2.1 h.2.2
  exact hfed (by simp [feederDuty, ApplyUnit.after, hrun, hfeeder, hpresent])

theorem applyKind_beacon (marks : Vector Bool 64) (same own : Bool) (r : Replica) (hk : f.kind = .beacon) :
    applyKind marks same own f r = ({ r with transfer := r.transfer }, transferReport own f []) := by
  simp only [applyKind, hk]
  rfl

/-! ### SYNC_ASK -/

theorem applyKind_syncAsk (marks : Vector Bool 64) (same own : Bool) (r : Replica) (hk : f.kind = .syncAsk) :
    applyKind marks same own f r = ({ r with transfer := (askRound same f.sender r.roster r.transfer).1 },
      transferReport own f (askRound same f.sender r.roster r.transfer).2) := by
  simp only [applyKind, hk]
  rfl

/-- A SYNC_ASK starts a round at most. -/
theorem askRound_events (same : Bool) (k : Station) (roster : StationSet) (x : TransferRecord) :
    (askRound same k roster x).2 = [] ∨ (askRound same k roster x).2 = [.roundStarted] := by
  unfold askRound
  (repeat' split) <;> simp

theorem askRound_refused {same : Bool} {k : Station} {roster : StationSet} {x : TransferRecord}
    (h : same = false ∨ k ∈ x.pendingList ∨ 4 ≤ x.pendingList.length) : (askRound same k roster x).1 = x := by
  rw [askRound, if_pos]
  rcases h with h | h | h <;> simp [h]

theorem askRound_taken {k : Station} {roster : StationSet} {x : TransferRecord} (hk : k ∉ x.pendingList)
    (hroom : x.pendingList.length < 4) :
    (x.running = true → (askRound true k roster x).1 = { x with pendingList := x.pendingList ++ [k] }) ∧
    (x.running = false → ∀ m : Station, lowestOf roster = some m → (askRound true k roster x).1
      = { running := true, feeder := m, round := x.round + 1, nextPage := 0, roundList := x.pendingList ++ [k],
          pendingList := [] }) := by
  have hopen : ¬ ((!true || decide (k ∈ x.pendingList) || decide (4 ≤ x.pendingList.length)) = true) := by simp [hk, hroom]
  refine ⟨fun hrun => ?_, fun hrun m hm => ?_⟩
  · rw [askRound, if_neg hopen, if_pos hrun]
  · rw [askRound, if_neg hopen, if_neg (by simp [hrun])]
    simp [startRound, hm]

/-! ### PAGE -/

/-- The transfer record and its events after a PAGE (R47). -/
def pageRound (f : Frame) (r : Replica) : TransferRecord × List TransferEvent :=
  if pageQualifies f.sender (byteAt f.payload 0) (byteAt f.payload 1) r.transfer then
    takePage (byteAt f.payload 1).toNat r.roster r.transfer
  else (r.transfer, [])

theorem applyKind_page (marks : Vector Bool 64) (same own : Bool) (r : Replica) (hk : f.kind = .page) :
    applyKind marks same own f r = ({ r with transfer := (pageRound f r).1 }, transferReport own f (pageRound f r).2) := by
  simp only [applyKind, hk, pageRound]
  split <;> rfl

theorem pageQualifies_iff (s : State) (f : Frame) :
    pageQualifies f.sender (byteAt f.payload 0) (byteAt f.payload 1) s.au.replica.transfer = true ↔ s.qualifies f := by
  simp [pageQualifies, State.qualifies, and_assoc]

/-- A PAGE ends a round or starts one, and breaks none. -/
theorem pageRound_events (f : Frame) (r : Replica) :
    .roundRestarted ∉ (pageRound f r).2 ∧ .roundDissolved ∉ (pageRound f r).2 := by
  unfold pageRound takePage endRound
  dsimp only
  (repeat' split) <;> simp

/-- The record after a PAGE is the one that R47 and R48 give. -/
theorem pageRound_taken (s : State) (f : Frame) : s.pageTaken f (pageRound f s.au.replica).1 := by
  refine ⟨fun hno => ?_, fun hyes => ?_⟩
  · rw [pageRound, if_neg (by rwa [pageQualifies_iff])]
  · rw [pageRound, if_pos ((pageQualifies_iff s f).mpr hyes)]
    refine ⟨fun hlow => ?_, fun hlast hnone => ?_, fun hlast hsome m hm hleast => ?_⟩
    · simp [takePage, Nat.ne_of_lt hlow]
    · simp [takePage, hlast, endRound, hnone]
    · simp [takePage, hlast, endRound, hsome, startRound, lowestOf_some.mpr ⟨hm, hleast⟩]

theorem page_received (h : s.receives rd f) (hk : f.kind = .page) (hstep : s.inStep f)
    (hcol : s.sc.state = .collecting → ¬ s.qualifies f) :
    ∃ t x, exec (.pageFrame rd) s = .next t ∧ s.followed t rd f ∧ s.sameLocks t ∧
      t.au = .after { s.au.replica with transfer := x } ∧ s.pageTaken f x := by
  obtain ⟨t, hexec, hfollowed, hlocks, hau, -⟩ := transferFrame_received h (dispositionOf_inStep s (by simp [hk]) hstep)
    (applyKind_page _ _ _ _ hk) (pageRound_events f s.au.replica) fun hc => by
      rw [pageRound, if_neg (by rw [pageQualifies_iff]; exact hcol hc)]
      rfl
  rw [hk] at hexec
  exact ⟨t, _, hexec, hfollowed, hlocks, hau, pageRound_taken s f⟩

end Sys2Proof.Machine
end

section
/-! PROOFS. Own frames that move no station: the own BEACON (R41, R53, R62, R64), the feeder's own PAGE (R47, R48, R98, R100), the own
SYNC_ASK (R45, R81), and the obligations on these kinds. -/

namespace Sys2Proof.Machine

variable {s t w x : State} {rd : Reading} {f : Frame}

/-! ### The guards after one change of the fence set -/

/-- One change of the fence set that acts on the guards as they were (R64, R130). -/
theorem State.guardsMoved_of (hgl : x.gl = s.gl) (hsc : x.sc = s.sc) (hrt : t.rt = x.rt)
    (ht : t.gl = (fenceGuards (fenceSet s) (fenceSet t) x).gl) : s.guardsMoved t := by
  obtain ⟨hsame, hstop, hstart⟩ := fenceGuards_get (fenceSet s) (fenceSet t) x
  have hbind : ∀ n, grantBinding x n = grantBinding s n := fun n => by simp only [grantBinding, hsc]
  have htime : guardTimeOf x = guardTimeOf s := by simp only [guardTimeOf, hsc]
  have hfresh : x.freshGuard = s.freshGuard := by simp only [State.freshGuard, htime]
  have hheld : ∀ l, lockHeld x l = lockHeld t l := fun l => by simp only [lockHeld, recordFor_congr hrt]
  refine ⟨fun h => (ht.trans (hsame h.symm)).trans hgl, fun hf hs => ht.trans (hstop hf hs), fun hf hs n => ?_⟩
  have hline := hstart hf hs n
  simp only [hbind, hheld, hfresh, hgl, ← ht] at hline
  exact hline

/-! ### What the blocks do with the report -/

/-- The presence state's part of an own frame that moves no station (R53, R62, R64, R71). -/
def ownTaken (k : Kind) (s : State) : State :=
  fenceChanged (fenceSet s) (fenceSet (ownFrameApplied k s)) (ownFrameApplied k s)

theorem presenceReactions_own {events : List TransferEvent} (hk : f.kind ≠ .evict) :
    presenceReactions (transferReport true f events) s
      = if present s.sc.state then revalidateEvict (ownTaken f.kind s) else s := by
  have hreport : presenceReport (transferReport true f events) s = ownTaken f.kind s := by
    simp [presenceReport, senderReport, addedReport, removedReport, transferReport, plainReport, fenceChanged_same, ownTaken]
  have houst : ousts (transferReport true f events) s = false := rfl
  have hevict : ¬ ((transferReport true f events).own = true ∧ (transferReport true f events).kind = .evict) := fun h => hk h.2
  simp only [presenceReactions, hreport, houst, if_neg hevict, Bool.false_eq_true, if_false]

/-- The report of an own frame with transfer events: the presence state is told, then the queue is looked after. -/
theorem handOn_ownTransfer {events : List TransferEvent} (hcalm : .roundRestarted ∉ events ∧ .roundDissolved ∉ events)
    (hk : f.kind ≠ .evict) (hd : f.kind ≠ .depart) (hv : voting s.sc.state = true)
    (hc : s.sc.state = .collecting → s.tc.collected ≤ 15) :
    handOn (transferReport true f events) s
      = revalidate (keepFeeding (if present s.sc.state then revalidateEvict (ownTaken f.kind s) else s)) := by
  have hout : takeOutcomes (transferReport true f events).outcomes s = s := takeOutcomes_none s (by simp [transferReport, plainReport])
  have hholds : departHolds (transferReport true f events) s = s := by simp [departHolds, transferReport, plainReport, hd]
  have hsc : (if present s.sc.state then revalidateEvict (ownTaken f.kind s) else s).sc = s.sc := by
    split <;> simp [ownTaken]
  have htc : (if present s.sc.state then revalidateEvict (ownTaken f.kind s) else s).tc = s.tc := by
    split <;> simp [ownTaken]
  have hstation := stationReport_own (if present s.sc.state then revalidateEvict (ownTaken f.kind s) else s)
    (transferReport_plain (f := f) true hcalm) hd (by rw [hsc, htc]; exact hc)
  have happlied : (transferReport true f events).disposition = .applied := rfl
  simp only [handOn, happlied, if_true, reactApplied, hout, hholds, presenceReactions_own hk, hstation, keepFeeding_frame, hsc, hv]

/-- The fence set after an own frame: CONTACT has left it (R53, R61). -/
theorem ownFrameApplied_fence (k : Kind) (s : State) : fenceSet (ownFrameApplied k s) = (false, s.pm.quorum) := by
  obtain ⟨-, hcontact, -, hquorum, -, -⟩ := ownFrameApplied_pm s k
  rw [fenceSet, hcontact, hquorum]

/-- What a sender with presence duties keeps of such a frame (R53, R61, R62, R64). -/
theorem handOn_ownTransfer_present {events : List TransferEvent}
    (hcalm : .roundRestarted ∉ events ∧ .roundDissolved ∉ events) (hk : f.kind ≠ .evict) (hd : f.kind ≠ .depart)
    (hp : present s.sc.state = true) :
    let t := handOn (transferReport true f events) s
    t.pm.ownContact = 0 ∧ t.pm.contact = false ∧ t.pm.silence = s.pm.silence ∧ t.pm.quorum = s.pm.quorum ∧
    s.guardsMoved t ∧ t.hp = s.hp.noticed (fenceReport (fenceSet s) (false, s.pm.quorum) s.au.replica.busSeq) := by
  intro t
  have hv : voting s.sc.state = true := by revert hp; cases s.sc.state <;> simp [present, voting]
  have hc : s.sc.state = .collecting → s.tc.collected ≤ 15 := fun h => by rw [h] at hp; cases hp
  have ht : t = revalidate (keepFeeding (revalidateEvict (ownTaken f.kind s))) := by
    rw [show t = _ from handOn_ownTransfer hcalm hk hd hv hc, if_pos hp]
  have hpm : t.pm = (ownFrameApplied f.kind s).pm := by
    rw [ht, revalidate_pm_present _ (by simpa [ownTaken] using hp)]
    simp [ownTaken]
  obtain ⟨hown, hcontact, hsilence, hquorum, -, -⟩ := ownFrameApplied_pm s f.kind
  have hset : fenceSet t = fenceSet (ownFrameApplied f.kind s) := by simp only [fenceSet, hpm]
  refine ⟨by rw [hpm, hown], by rw [hpm, hcontact], by rw [hpm, hsilence], by rw [hpm, hquorum], ?_, ?_⟩
  · refine State.guardsMoved_of
      (x := fenceNotices (fenceSet s) (fenceSet (ownFrameApplied f.kind s)) (ownFrameApplied f.kind s)) ?_ ?_ ?_ ?_
    · simp
    · simp
    · simp [ht, ownTaken]
    · rw [hset]
      simp [ht, ownTaken, fenceChanged]
  · simp [ht, ownTaken, fenceChanged, fenceNotices_hp, ownFrameApplied_fence]

/-! ### An own frame in step -/

/-- The state in which the blocks of its sender take the report of an own frame with transfer events (R33, R37, R152). -/
structure State.ownHeard (s w : State) (y : TransferRecord) : Prop where
  au : w.au = { s.au with replica := { s.au.replica with busSeq := s.au.replica.busSeq + 1, transfer := y } }
  sc : w.sc = s.sc
  tc : w.tc = s.tc
  rt : w.rt = s.rt
  gl : w.gl = s.gl
  ri : w.ri = s.ri
  hp : w.hp = s.hp
  station : w.station = s.station
  queue : w.oq.entries = s.oq.entries.filter fun e => !e.contending
  contact : w.pm.contact = s.pm.contact
  quorum : w.pm.quorum = s.pm.quorum
  silence : w.pm.silence = s.pm.silence

theorem ownTransfer_applied {y : TransferRecord} {events : List TransferEvent} (h : s.sends rd f)
    (hv : voting s.sc.state = true) (hd : dispositionOf s.au.replica f = .applied)
    (happly : applyKind s.tc.uncollected (sameProfile s f.payload) true f s.au.replica
      = ({ s.au.replica with transfer := y }, transferReport true f events))
    (hpage : s.sc.state = .collecting → takesLockPage (transferReport true f events) = false) :
    ∃ w, s.ownHeard w y ∧ exec (frameCommand f.kind rd) s = .next (handOn (transferReport true f events) w) := by
  obtain ⟨x, -, hexec⟩ := acceptOwn_applied s h hv hd (by rw [happly]; exact hpage)
  rw [happly] at hexec
  refine ⟨_, ?_, hexec⟩
  obtain ⟨eau, esc, etc, ert, eri, ehp, egl, estation, eoq, epm⟩ := ownAccepted_effect f.kind
    ((s.withLc x).withAu { s.au with replica := { s.au.replica with transfer := y, busSeq := s.au.replica.busSeq + 1 } })
  exact ⟨eau, esc, etc, ert, egl, eri, ehp, estation, eoq, by rw [epm]; rfl, by rw [epm]; rfl, by rw [epm]; rfl⟩

theorem State.ownHeard.fence {y : TransferRecord} (h : s.ownHeard w y) : fenceSet w = fenceSet s := by
  rw [fenceSet, fenceSet, h.contact, h.quorum]

/-- The guards move from the sender's own state as they do from the one in which the report is taken. -/
theorem State.ownHeard.guardsMoved {y : TransferRecord} (h : s.ownHeard w y) (hmoved : w.guardsMoved t) : s.guardsMoved t := by
  have hfenced : fenced w = fenced s := by simp only [fenced, h.contact, h.quorum]
  have hbind : ∀ n, grantBinding w n = grantBinding s n := fun n => by simp only [grantBinding, h.sc]
  have htime : guardTimeOf w = guardTimeOf s := by simp only [guardTimeOf, h.sc]
  have hfresh : w.freshGuard = s.freshGuard := by simp only [State.freshGuard, htime]
  simpa only [State.guardsMoved, hfenced, hbind, hfresh, h.gl] using hmoved

theorem State.ownHeard.attempt {y : TransferRecord} (h : s.ownHeard w y) : w.attempt = [] := by
  rw [State.attempt_nil, h.queue]
  intro e he
  simpa using (List.mem_filter.mp he).2

/-- An attempt that has ended leaves no entry CONTENDING, whatever the blocks then do with the queue. -/
theorem handOn_ownTransfer_attempt {events : List TransferEvent} (hcalm : .roundRestarted ∉ events ∧ .roundDissolved ∉ events)
    (hk : f.kind ≠ .evict) (hd : f.kind ≠ .depart) (hv : voting s.sc.state = true)
    (hc : s.sc.state = .collecting → s.tc.collected ≤ 15) (hnone : s.attempt = []) :
    (handOn (transferReport true f events) s).attempt = [] := by
  rw [handOn_ownTransfer hcalm hk hd hv hc]
  simp only [revalidate_attempt, keepFeeding_attempt]
  split
  · rw [revalidateEvict_attempt, State.attempt_of_oq (s := ownFrameApplied f.kind s) (by simp [ownTaken]), ownFrameApplied_attempt,
      hnone]
  · exact hnone

/-! ### BEACON -/

/-- Settles O32: at a receiver the report is followed, and at its sender CONTACT leaves the fence set. -/
theorem beaconFrameApplied : Obligations.BeaconFrameApplied := by
  intro s rd f hk hstep hv
  have hcalm : TransferEvent.roundRestarted ∉ ([] : List TransferEvent) ∧ .roundDissolved ∉ ([] : List TransferEvent) := by simp
  have hd := dispositionOf_inStep s (by simp [hk]) hstep
  refine ⟨fun h => ?_, fun h hc => ?_⟩
  · obtain ⟨t, hexec, hfollowed, hlocks, hau, -⟩ :=
      transferFrame_received h hd (applyKind_beacon _ _ _ _ hk) hcalm fun _ => rfl
    rw [hk] at hexec
    exact ⟨t, hexec, hau, hfollowed, hlocks⟩
  · obtain ⟨w, hw, hexec⟩ := ownTransfer_applied h hv hd (applyKind_beacon _ _ _ _ hk) fun _ => rfl
    have hwv : voting w.sc.state = true := by rw [hw.sc]; exact hv
    have hwc : w.sc.state = .collecting → w.tc.collected ≤ 15 := by rw [hw.sc, hw.tc]; exact hc
    obtain ⟨oau, osc, otc, -, ort, ori, -, -, -⟩ := handOn_own w (transferReport_plain (f := f) true hcalm) rfl rfl
      (by simp [transferReport, plainReport, hk]) hwv hwc
    have hout : takeOutcomes (transferReport true f []).outcomes w = w :=
      takeOutcomes_none w (by simp [transferReport, plainReport])
    rw [hout] at ort ori
    have hpresent := fun hp => handOn_ownTransfer_present (f := f) (s := w) hcalm (by simp [hk]) (by simp [hk]) hp
    rw [hk] at hexec
    refine ⟨_, hexec, oau.trans hw.au, osc.trans hw.sc, otc.trans hw.tc, ort.trans hw.rt, ori.trans hw.ri, ?_, fun hp => ?_,
      fun hm => ?_⟩
    · exact State.attempt_nil.mp (handOn_ownTransfer_attempt hcalm (by simp [hk]) (by simp [hk]) hwv hwc hw.attempt)
    · obtain ⟨hown, hcontact, hsilence, -, -, -⟩ := hpresent (by rw [hw.sc]; exact hp)
      exact ⟨hown, hcontact, hsilence.trans hw.silence⟩
    · obtain ⟨-, -, -, hquorum, hmoved, hhp⟩ := hpresent (by rw [hw.sc, hm]; rfl)
      refine ⟨hw.guardsMoved hmoved, hquorum.trans hw.quorum, ?_⟩
      rw [hhp, hw.hp, hw.fence, hw.quorum, hw.au]

/-! ### SYNC_ASK -/

/-- The own SYNC_ASK accepted in ASKING (R81, R152). -/
theorem ownAsk_observed (h : s.sends rd f) (hk : f.kind = .syncAsk) (hs : s.sc.state = .asking) :
    ∃ t, exec (.syncAskFrame rd) s = .next t ∧ t.sc = s.sc.inState .waitRound ∧ t.au = .cleared ∧
      t.oq.entries = s.oq.entries.filter (fun e => !e.contending) ∧ t.hp = s.hp ∧ t.ri = s.ri := by
  obtain ⟨x, hx, -⟩ := acceptOwn_line s f rd
  have hexec := exec_frameCommand s f.kind rd
  obtain ⟨-, esc, -, -, eri, ehp, -, -, eoq, -⟩ := ownAccepted_effect f.kind (s.withLc x)
  generalize hw : ownAccepted f.kind (s.withLc x) = w at *
  have hws : w.sc.state = .asking := by rw [esc]; exact hs
  have hobserve : acceptFrame true f (s.withLc x) = enterState .waitRound w := by
    have hnot : voting (s.withLc x).sc.state = false := by simp [hs, voting]
    simp only [acceptFrame, hnot, Bool.false_eq_true, if_false, if_true, hw]
    simp [observe, hws, hk]
  rw [acceptedFrame_sends s h, hx, hobserve, hk] at hexec
  refine ⟨_, hexec, ?_, ?_, ?_, ?_, ?_⟩
  · rw [enterState_sc, esc]; rfl
  · rw [enterState_au, show voting .waitRound = false from rfl, if_neg (by simp)]
  · rw [enterState_oq, hws, if_neg (by simp [voting]), eoq]; rfl
  · simpa using ehp
  · simpa using eri

/-- Settles O33: the transfer record by the three cases of R45. -/
theorem syncAskFrameApplied : Obligations.SyncAskFrameApplied := by
  refine ⟨fun s rd f h hk => ?_, fun s rd f h hk hs => ownAsk_observed h hk hs⟩
  have hd : dispositionOf s.au.replica f = .applied := by simp [dispositionOf, hk]
  have hevents := askRound_events (sameProfile s f.payload) f.sender s.au.replica.roster s.au.replica.transfer
  obtain ⟨t, hexec, hfollowed, hlocks, hau, hfed⟩ := transferFrame_received h hd (applyKind_syncAsk _ _ _ _ hk)
    (by rcases hevents with he | he <;> simp [he])
    fun _ => by rcases hevents with he | he <;> simp [takesLockPage, transferReport, he]
  rw [hk] at hexec
  refine ⟨t, _, hexec, hfollowed, hlocks, hau, askRound_refused, fun hsame hnew hroom => ?_⟩
  obtain ⟨hrunning, hidle⟩ := askRound_taken (roster := s.au.replica.roster) hnew hroom
  rw [hsame] at hfed ⊢
  refine ⟨hrunning, fun hrun m hm hleast => ?_⟩
  have hstart := hidle hrun m (lowestOf_some.mpr ⟨hm, hleast⟩)
  rw [hstart] at hfed ⊢
  exact ⟨rfl, fun hme hp => hfed rfl hme hp⟩

/-! ### The feeder's own PAGE -/

/-- The PAGE entries of the outbound queue. -/
def State.pages (s : State) : List Entry := s.oq.entries.filter fun e => ownerOf e.content == .page

theorem State.pages_of_oq (h : t.oq = s.oq) : t.pages = s.pages := by rw [pages, pages, h]

theorem State.pages_nil : s.pages = [] ↔ ∀ e ∈ s.oq.entries, ownerOf e.content ≠ .page := by
  simp [pages, List.filter_eq_nil_iff]

theorem hasEntry_page : hasEntry .page s = false ↔ s.pages = [] := by
  rw [State.pages_nil, hasEntry, List.any_eq_false]
  simp

theorem placeEntry_pages (c : Content) (s : State) :
    (placeEntry c s).pages = s.pages ++ if ownerOf c == .page then [newEntry c] else [] := by
  cases hc : ownerOf c == .page <;> simp [State.pages, placeEntry, newEntry, hc]

/-- A cancellation that spares the QUEUED entries of the feeder keeps its PAGE entries. -/
theorem cancelQueued_pages {p : Entry → Bool} (h : ∀ e, ownerOf e.content = .page → p e = false) :
    (cancelQueued p s).pages = s.pages := by
  simp only [State.pages, cancelQueued, State.withEntries_oq, List.filter_filter]
  refine List.filter_congr fun e _ => ?_
  by_cases hpage : ownerOf e.content = .page
  · simp [hpage, h e hpage]
  · simp [hpage]

theorem cancelQueued_pages_nil {p : Entry → Bool} (h : s.pages = []) : (cancelQueued p s).pages = [] := by
  rw [State.pages_nil] at h ⊢
  intro e he
  simp only [cancelQueued, State.withEntries_oq, List.mem_filter] at he
  exact h e he.1

theorem decideEviction_pages (s : State) : (decideEviction s).pages = s.pages := by
  unfold decideEviction
  (repeat' split)
  · rw [placeEntry_pages]
    exact List.append_nil _
  · rfl
  · rfl

theorem revalidateEvict_pages (s : State) : (revalidateEvict s).pages = s.pages := by
  unfold revalidateEvict
  split
  · rw [decideEviction_pages, cancelQueued_pages]
    intro e he
    simp [he]
  · rfl

theorem ownTaken_pages (k : Kind) (s : State) : (ownTaken k s).pages = s.pages := by
  rw [State.pages_of_oq (s := ownFrameApplied k s) (by simp [ownTaken])]
  unfold ownFrameApplied
  dsimp only
  (repeat' split)
  · rfl
  · refine (State.pages_of_oq rfl).trans (cancelQueued_pages (s := s.withPm _) fun e he => ?_)
    simp [he]
  · rfl

/-- The care for feeder duty leaves one PAGE entry with the duty, and none without it (R98, R100). -/
theorem keepFeeding_pages (h : s.pages = []) : (keepFeeding s).pages = if feederDuty s then [newEntry .page] else [] := by
  unfold keepFeeding
  split
  · rw [if_neg (by simp [hasEntry_page.mpr h]), placeEntry_pages, h]
    rfl
  · exact cancelQueued_pages_nil h

/-- A revalidation with the duty, or with no PAGE entry, changes none (R148). -/
theorem revalidate_pages (h : feederDuty s = true ∨ s.pages = []) : (revalidate s).pages = s.pages := by
  have hstale : (removeStale s).pages = s.pages := by
    rcases h with hduty | hnone
    · refine cancelQueued_pages fun e he => ?_
      have hpage : e.content = .page := by cases hc : e.content <;> simp [hc, ownerOf] at he ⊢
      simp [hpage, entryDue, hduty]
    · rw [hnone]
      exact cancelQueued_pages_nil hnone
  have hbeacon : (if staleEntry .beacon s then (removeStale s).withPm { (removeStale s).pm with beaconAge := none }
      else removeStale s).pages = s.pages := by
    split <;> exact hstale
  unfold revalidate
  dsimp only
  split
  · rw [decideEviction_pages]
    exact hbeacon
  · exact hbeacon

/-- After the feeder's own PAGE the queue holds the next one exactly while the duty holds (R98, R100). -/
theorem handOn_ownTransfer_pages {events : List TransferEvent} (hcalm : .roundRestarted ∉ events ∧ .roundDissolved ∉ events)
    (hk : f.kind ≠ .evict) (hd : f.kind ≠ .depart) (hp : present s.sc.state = true) (hnone : s.pages = []) :
    (handOn (transferReport true f events) s).pages = if feederDuty s then [newEntry .page] else [] := by
  have hv : voting s.sc.state = true := by revert hp; cases s.sc.state <;> simp [present, voting]
  have hc : s.sc.state = .collecting → s.tc.collected ≤ 15 := fun h => by rw [h] at hp; cases hp
  rw [handOn_ownTransfer hcalm hk hd hv hc, if_pos hp]
  have htaken : (revalidateEvict (ownTaken f.kind s)).pages = [] := by rw [revalidateEvict_pages, ownTaken_pages, hnone]
  have hduty : feederDuty (revalidateEvict (ownTaken f.kind s)) = feederDuty s := by simp [feederDuty, ownTaken]
  have hfed := keepFeeding_pages htaken
  rw [hduty] at hfed
  rw [revalidate_pages, hfed]
  cases hs : feederDuty s
  · right
    rw [hfed, hs]
    rfl
  · left
    rw [← hs, ← hduty]
    simp [feederDuty]

theorem page_sent (h : s.sendsInStep rd f) (hk : f.kind = .page)
    (hpages : ∀ e ∈ s.oq.entries, ownerOf e.content = .page → e.contending = true) :
    ∃ t x, exec (.pageFrame rd) s = .next t ∧ t.sc = s.sc ∧ t.rt = s.rt ∧
      t.au = { s.au with replica := { s.au.replica with busSeq := s.au.replica.busSeq + 1, transfer := x } } ∧
      s.pageTaken f x ∧ (∀ e ∈ t.oq.entries, ownerOf e.content = .page → e = newEntry .page) ∧
      (newEntry .page ∈ t.oq.entries ↔ x.running = true ∧ x.feeder = s.station) := by
  obtain ⟨hsends, hstate, -, hstep⟩ := h
  have hp : present s.sc.state = true := by rcases hstate with hs | ⟨hs, -⟩ <;> rw [hs] <;> rfl
  have hv : voting s.sc.state = true := by rcases hstate with hs | ⟨hs, -⟩ <;> rw [hs] <;> rfl
  have hnot : s.sc.state ≠ .collecting := fun hc => by rw [hc] at hp; cases hp
  have hcalm := pageRound_events f s.au.replica
  obtain ⟨w, hw, hexec⟩ := ownTransfer_applied hsends hv (dispositionOf_inStep s (by simp [hk]) hstep)
    (applyKind_page _ _ _ _ hk) fun hc => absurd hc hnot
  have hwp : present w.sc.state = true := by rw [hw.sc]; exact hp
  obtain ⟨oau, osc, -, -, ort, -, -, -, -⟩ := handOn_own w (transferReport_plain (f := f) true hcalm) rfl rfl
    (by simp [transferReport, plainReport, hk]) (by rw [hw.sc]; exact hv) fun hc => by rw [hw.sc] at hc; exact absurd hc hnot
  have hout : takeOutcomes (transferReport true f (pageRound f s.au.replica).2).outcomes w = w :=
    takeOutcomes_none w (by simp [transferReport, plainReport])
  rw [hout] at ort
  have hnone : w.pages = [] := by
    rw [State.pages_nil, hw.queue]
    intro e he hpage
    obtain ⟨hmem, hqueued⟩ := List.mem_filter.mp he
    rw [hpages e hmem hpage] at hqueued
    cases hqueued
  have hqueue := handOn_ownTransfer_pages (f := f) hcalm (by simp [hk]) (by simp [hk]) hwp hnone
  have hduty : feederDuty w = true
      ↔ (pageRound f s.au.replica).1.running = true ∧ (pageRound f s.au.replica).1.feeder = s.station := by
    simp [feederDuty, hwp, hw.au, hw.station]
  have hmem : ∀ e, e ∈ (handOn (transferReport true f (pageRound f s.au.replica).2) w).oq.entries ∧ ownerOf e.content = .page
      ↔ e = newEntry .page ∧ feederDuty w = true := fun e => by
    have hiff : e ∈ (handOn (transferReport true f (pageRound f s.au.replica).2) w).pages
        ↔ e = newEntry .page ∧ feederDuty w = true := by
      rw [hqueue]
      cases feederDuty w <;> simp
    rw [← hiff, State.pages, List.mem_filter, beq_iff_eq]
  rw [hk] at hexec
  refine ⟨_, _, hexec, osc.trans hw.sc, ort.trans hw.rt, oau.trans hw.au, pageRound_taken s f, fun e he hpage => ?_, ?_⟩
  · exact ((hmem e).mp ⟨he, hpage⟩).1
  · rw [← hduty]
    exact ⟨fun he => ((hmem _).mp ⟨he, rfl⟩).2, fun hdue => ((hmem _).mpr ⟨rfl, hdue⟩).1⟩

/-- Settles O34: the receivers and the feeder take the page into their records alike. -/
theorem pageFrameApplied : Obligations.PageFrameApplied :=
  ⟨fun _ _ _ h hk hstep hcol => page_received h hk hstep hcol, fun _ _ _ h hk hpages => page_sent h hk hpages⟩

end Sys2Proof.Machine
end

section
/-! PROOFS. Entry to MEMBER: the presence state (R72) and the request inputs examined (R104, R107, R136, R139), and the obligation on
FOUND (R44, R79). -/

namespace Sys2Proof.Machine

variable {s t u v : State} {rd : Reading} {f : Frame} {p : Pin} {l : Lock} {r : HoldRecord}

/-! ### One request input -/

/-- The PIN_REFUSED notice of a request input with a bus sequence (R107, R197). -/
def State.pinRefusal (s : State) (q : BusSeq) (p : Pin) : Notice :=
  { kind := .pinRefused, lock := requestBinding s p, station := none, generation := none, qualifier := .none, busSeq := q }

theorem State.pinRefusals_eq (s : State) (q : BusSeq) :
    s.pinRefusals q = ((List.finRange 4).filter fun p => s.pinAsks p && s.pinBefore p).map (s.pinRefusal q) := rfl

theorem requestBinding_congr (h : t.sc.config = s.sc.config) (p : Pin) : requestBinding t p = requestBinding s p := by
  simp only [requestBinding, h]

theorem requestLimit_congr (h : t.sc.config = s.sc.config) (p : Pin) : requestLimit t p = requestLimit s p := by
  simp only [requestLimit, h]

theorem State.pinsDistinct.congr (h : s.pinsDistinct) (hconfig : t.sc.config = s.sc.config) : t.pinsDistinct := by
  intro p q hne
  simpa only [requestBinding_congr hconfig] using h p q hne

/-- A pin that does not ask changes nothing while its lock has no record. -/
theorem evaluatePin_silent (hr : ∀ l, requestBinding s p = some l → recordFor s l = none) (h : s.pinAsks p = false) :
    evaluatePin p s = s := by
  unfold evaluatePin
  cases hbind : requestBinding s p with
  | none => rfl
  | some l =>
    have hlow : s.ri.inputs[p].stable = false := by simpa [State.pinAsks, hbind] using h
    simp only [hr l hbind, hlow, Bool.false_and, Bool.false_eq_true, if_false, ite_self]

/-- A pin that asks and is not ignored claims its lock while that has no record (R108). -/
theorem evaluatePin_claims (hm : s.sc.state = .member) (hbind : requestBinding s p = some l) (hr : recordFor s l = none)
    (h : s.pinAsks p = true) (hclear : s.ri.inputs[p].ignored = false) : evaluatePin p s = pinClaim p l s := by
  have hhigh : s.ri.inputs[p].stable = true := by simpa [State.pinAsks, hbind] using h
  unfold evaluatePin
  simp only [hbind, hm, if_true, hr, hhigh, hclear, Bool.not_false, Bool.and_self]

/-- With an empty hold list the claim is taken (R104, R106, R107). -/
theorem pinClaim_empty (hrt : s.rt = .empty) (p : Pin) (l : Lock) :
    pinClaim p l s = placeEntry (.claim l .wait) (setSlot (tierOf l) (some (s.pinRecord p l)) s) := by
  have habove : aboveOccupied s l = true := by simp [aboveOccupied, hrt, RequestTracker.empty]
  have hfree : anyPending s = false := by simp [anyPending, hrt, RequestTracker.empty]
  rw [pinClaim, habove, hfree]
  rfl

/-- The one record of a hold list. -/
def State.holdsOne (s : State) (r : HoldRecord) : Prop :=
  s.rt.slots = putAt RequestTracker.empty.slots (tierOf r.lock) (some r)

theorem State.holdsOne.slot (h : s.holdsOne r) (i : Tier) : s.rt.slots[i] = if tierOf r.lock = i then some r else none := by
  rw [h, putAt_get]
  simp [RequestTracker.empty]

theorem State.holdsOne.recordFor_other (h : s.holdsOne r) (hl : l ≠ r.lock) : recordFor s l = none := by
  unfold recordFor
  rw [h.slot]
  split
  next k hk =>
    split at hk
    · cases hk
      exact if_neg fun hlock => hl hlock.symm
    · cases hk
  next => rfl

/-- With a pending record the claim is refused, and the pin ignored (R106, R107, R136). -/
theorem State.holdsOne.pinClaim (h : s.holdsOne r) (hr : isPending r = true) (p : Pin) (l : Lock) :
    pinClaim p l s = ignorePin p (lockNotice .pinRefused l none .none s) := by
  have hpending : anyPending s = true := by
    rw [anyPending, List.any_eq_true]
    refine ⟨tierOf r.lock, List.mem_finRange _, ?_⟩
    rw [h.slot, if_pos rfl]
    exact hr
  rw [Machine.pinClaim, hpending, if_neg (by simp)]

/-! ### The request inputs after the first that asks -/

/-- The pins of a list, refused because another pin's claim is pending: those that ask are ignored, each with its notice (R107, R136). -/
structure State.pinsRefused (s t : State) (ps : List Pin) : Prop where
  rt : t.rt = s.rt
  oq : t.oq = s.oq
  sc : t.sc = s.sc
  au : t.au = s.au
  inputs : ∀ p : Pin, t.ri.inputs[p]
    = { s.ri.inputs[p] with ignored := s.ri.inputs[p].ignored || (decide (p ∈ ps) && s.pinAsks p) }
  hp : t.hp = s.hp.noticed ((ps.filter s.pinAsks).map (s.pinRefusal s.au.replica.busSeq))

theorem State.pinsRefused.asks {ps : List Pin} (h : s.pinsRefused t ps) (p : Pin) : t.pinAsks p = s.pinAsks p := by
  rw [pinAsks, pinAsks, h.inputs, requestBinding_congr (congrArg _ h.sc)]

theorem State.pinsRefused.refusal {ps : List Pin} (h : s.pinsRefused t ps) (q : BusSeq) : t.pinRefusal q = s.pinRefusal q :=
  funext fun p => by rw [pinRefusal, pinRefusal, requestBinding_congr (congrArg _ h.sc)]

theorem State.pinsRefused.nil (s : State) : s.pinsRefused s [] where
  rt := rfl
  oq := rfl
  sc := rfl
  au := rfl
  inputs p := by simp
  hp := by simp

theorem State.pinsRefused.append {ps qs : List Pin} (h : s.pinsRefused t ps) (h' : t.pinsRefused u qs) :
    s.pinsRefused u (ps ++ qs) where
  rt := h'.rt.trans h.rt
  oq := h'.oq.trans h.oq
  sc := h'.sc.trans h.sc
  au := h'.au.trans h.au
  inputs p := by
    rw [h'.inputs, h.asks, h.inputs]
    cases s.pinAsks p <;> simp [Bool.or_assoc]
  hp := by
    have hasks : t.pinAsks = s.pinAsks := funext h.asks
    rw [h'.hp, h.hp, hasks, h.refusal, h.au, HostPort.noticed_append, List.filter_append, List.map_append]

/-- One pin beside a pending record of another lock. -/
theorem State.holdsOne.evaluatePin (h : s.holdsOne r) (hr : isPending r = true) (hm : s.sc.state = .member)
    (hbind : requestBinding s p ≠ some r.lock) (hclear : s.ri.inputs[p].ignored = false) :
    s.pinsRefused (evaluatePin p s) [p] := by
  have hrecord : ∀ l, requestBinding s p = some l → recordFor s l = none := fun l hl =>
    h.recordFor_other fun heq => hbind (by rw [hl, heq])
  cases hasks : s.pinAsks p with
  | false =>
    rw [evaluatePin_silent hrecord hasks]
    refine ⟨rfl, rfl, rfl, rfl, fun k => ?_, by simp [hasks]⟩
    by_cases hk : k = p
    · simp [hk, hasks]
    · simp [hk]
  | true =>
    obtain ⟨l, hl⟩ : ∃ l, requestBinding s p = some l := by
      simp only [pinAsks, Bool.and_eq_true] at hasks
      exact Option.isSome_iff_exists.mp hasks.2
    rw [evaluatePin_claims hm hl (hrecord l hl) hasks hclear, h.pinClaim hr]
    refine ⟨by simp [ignorePin], by simp [ignorePin], by simp [ignorePin], by simp [ignorePin], fun k => ?_, ?_⟩
    · simp only [ignorePin, State.withRi_ri, putAt_get]
      by_cases hk : p = k
      · subst hk
        simp [hasks]
      · have hk' : k ≠ p := fun heq => hk heq.symm
        simp [hk, hk']
    · simp [ignorePin, lockNotice_hp, hasks, pinRefusal, hl]

/-- The later pins, in order. -/
theorem State.holdsOne.evaluatePins {ps : List Pin} (h : s.holdsOne r) (hr : isPending r = true) (hm : s.sc.state = .member)
    (honce : ps.Nodup) (hbind : ∀ p ∈ ps, requestBinding s p ≠ some r.lock)
    (hclear : ∀ p ∈ ps, s.ri.inputs[p].ignored = false) :
    s.pinsRefused (ps.foldl (fun t p => Machine.evaluatePin p t) s) ps := by
  induction ps generalizing s with
  | nil => exact .nil s
  | cons p ps ih =>
    have hfirst := h.evaluatePin hr hm (hbind p (by simp)) (hclear p (by simp))
    obtain ⟨hp, honce⟩ := List.nodup_cons.mp honce
    refine hfirst.append (ih ?_ ?_ honce (fun k hk => ?_) fun k hk => ?_)
    · rw [holdsOne, hfirst.rt]
      exact h
    · rw [hfirst.sc]
      exact hm
    · rw [requestBinding_congr (congrArg _ hfirst.sc)]
      exact hbind k (by simp [hk])
    · have hne : k ≠ p := fun heq => hp (heq ▸ hk)
      rw [hfirst.inputs]
      simpa [hne] using hclear k (by simp [hk])

/-! ### The request inputs examined -/

/-- Pins that do not ask, with an empty hold list. -/
theorem evaluatePins_silent {ps : List Pin} (hrt : s.rt = .empty) (h : ∀ p ∈ ps, s.pinAsks p = false) :
    ps.foldl (fun t p => evaluatePin p t) s = s := by
  induction ps with
  | nil => rfl
  | cons p ps ih =>
    rw [List.foldl_cons, evaluatePin_silent (fun l _ => recordFor_empty hrt l) (h p (by simp))]
    exact ih fun k hk => h k (by simp [hk])

/-- The pins in order: those before the first that asks, it, and those after it. -/
structure State.askOrder (s : State) (before : List Pin) (first : Pin) (after : List Pin) : Prop where
  pins : List.finRange 4 = before ++ first :: after
  asks : s.pinAsks first = true
  silent : ∀ p ∈ before, s.pinAsks p = false
  once : after.Nodup
  apart : first ∉ after
  leads : s.pinBefore first = false
  follows : ∀ p ∈ after, s.pinBefore p = true

theorem State.pinAsks_split (s : State) :
    (∀ p, s.pinAsks p = false) ∨ ∃ before first after, s.askOrder before first after := by
  cases hfind : (List.finRange 4).find? s.pinAsks with
  | none =>
    left
    intro p
    simpa using List.find?_eq_none.mp hfind p (List.mem_finRange p)
  | some first =>
    right
    obtain ⟨hasks, before, after, hall, hbefore⟩ := List.find?_eq_some_iff_append.mp hfind
    have hsilent : ∀ p ∈ before, s.pinAsks p = false := fun p hp => by simpa using hbefore p hp
    have hsorted := List.pairwise_lt_finRange 4
    rw [hall, List.pairwise_append, List.pairwise_cons] at hsorted
    obtain ⟨-, ⟨hafter, hrest⟩, -⟩ := hsorted
    refine ⟨before, first, after, hall, hasks, hsilent, hrest.imp ne_of_lt, fun h => lt_irrefl _ (hafter _ h), ?_, fun p hp => ?_⟩
    · rw [pinBefore, List.any_eq_false]
      intro k hk
      rw [hall, List.mem_append, List.mem_cons] at hk
      rcases hk with hk | rfl | hk
      · simp [hsilent k hk]
      · simp
      · simp [lt_asymm (hafter k hk)]
    · rw [pinBefore, List.any_eq_true]
      exact ⟨first, List.mem_finRange first, by simp [hafter p hp, hasks]⟩

section
variable {before after : List Pin} {first : Pin}

theorem State.askOrder.cases (h : s.askOrder before first after) (p : Pin) : p ∈ before ∨ p = first ∨ p ∈ after := by
  have hp : p ∈ before ++ first :: after := h.pins ▸ List.mem_finRange p
  simpa using hp

/-- The pin that asks with none before it. -/
theorem State.askOrder.first_of (h : s.askOrder before first after) (hasks : s.pinAsks p = true) (hnone : s.pinBefore p = false) :
    p = first := by
  rcases h.cases p with hp | hp | hp
  · rw [h.silent p hp] at hasks
    cases hasks
  · exact hp
  · rw [h.follows p hp] at hnone
    cases hnone

/-- The pins that ask after another one. -/
theorem State.askOrder.later (h : s.askOrder before first after) (p : Pin) :
    (s.pinAsks p && s.pinBefore p) = (decide (p ∈ after) && s.pinAsks p) := by
  rcases h.cases p with hp | rfl | hp
  · simp [h.silent p hp]
  · simp [h.leads, h.apart]
  · simp [hp, h.follows p hp]

theorem State.askOrder.refusals (h : s.askOrder before first after) (q : BusSeq) :
    s.pinRefusals q = (after.filter s.pinAsks).map (s.pinRefusal q) := by
  have hleft : before.filter (fun p => decide (p ∈ after) && s.pinAsks p) = [] :=
    List.filter_eq_nil_iff.mpr fun p hp => by simp [h.silent p hp]
  have hright : after.filter (fun p => decide (p ∈ after) && s.pinAsks p) = after.filter s.pinAsks :=
    List.filter_congr fun p hp => by simp [hp]
  simp only [pinRefusals_eq, h.pins, h.later, List.filter_append, List.filter_cons, hleft, hright, h.apart, decide_false,
    Bool.false_and, Bool.false_eq_true, if_false, List.nil_append]

end

/-- The state whose request inputs have their ignore marks cleared, as they are examined (R136). -/
def State.marksCleared (s : State) : State := s.withRi { inputs := tabulate fun p => { s.ri.inputs[p] with ignored := false } }

theorem State.marksCleared_input (s : State) (p : Pin) :
    s.marksCleared.ri.inputs[p] = { s.ri.inputs[p] with ignored := false } := tabulate_get _ p

theorem State.marksCleared_asks (s : State) (p : Pin) : s.marksCleared.pinAsks p = s.pinAsks p := by
  rw [pinAsks, pinAsks, s.marksCleared_input]
  rfl

theorem examinePins_eq (s : State) :
    examinePins s = (List.finRange 4).foldl (fun t p => evaluatePin p t) s.marksCleared := rfl

theorem marksCleared_silent {ps : List Pin} (hrt : s.rt = .empty) (h : ∀ p ∈ ps, s.pinAsks p = false) :
    ps.foldl (fun t p => evaluatePin p t) s.marksCleared = s.marksCleared :=
  evaluatePins_silent hrt fun p hp => (s.marksCleared_asks p).trans (h p hp)

/-- The state after the claim of the first pin that asks (R107). -/
def State.firstClaimed (s : State) (p : Pin) (l : Lock) : State :=
  placeEntry (.claim l .wait) (setSlot (tierOf l) (some (s.pinRecord p l)) s.marksCleared)

theorem evaluatePin_first (hm : s.sc.state = .member) (hrt : s.rt = .empty) (hl : requestBinding s p = some l)
    (hasks : s.pinAsks p = true) : evaluatePin p s.marksCleared = s.firstClaimed p l := by
  rw [evaluatePin_claims (s := s.marksCleared) hm hl (recordFor_empty hrt l) ((s.marksCleared_asks p).trans hasks)
    (by rw [s.marksCleared_input]), pinClaim_empty (s := s.marksCleared) hrt]
  rfl

theorem State.firstClaimed_holdsOne (hrt : s.rt = .empty) (p : Pin) (l : Lock) :
    (s.firstClaimed p l).holdsOne (s.pinRecord p l) := by
  rw [holdsOne, ← hrt]
  rfl

theorem State.firstClaimed_asks (s : State) (p : Pin) (l : Lock) : (s.firstClaimed p l).pinAsks = s.pinAsks :=
  funext s.marksCleared_asks

/-- The pins after the first that asks, refused beside its claim (R107, R139). -/
theorem examinePins_refused {before after : List Pin} {first : Pin} (hm : s.sc.state = .member) (hrt : s.rt = .empty)
    (hdistinct : s.pinsDistinct) (h : s.askOrder before first after) (hl : requestBinding s first = some l) :
    (s.firstClaimed first l).pinsRefused (examinePins s) after := by
  have hfold : examinePins s = after.foldl (fun t p => evaluatePin p t) (s.firstClaimed first l) := by
    rw [examinePins_eq, h.pins, List.foldl_append, marksCleared_silent hrt h.silent, List.foldl_cons,
      evaluatePin_first hm hrt hl h.asks]
  have hbind : ∀ p ∈ after, requestBinding (s.firstClaimed first l) p ≠ some l := fun p hp hp' => by
    have hne : first ≠ p := fun heq => h.apart (heq ▸ hp)
    have hunbound := hdistinct first p hne (hl.trans hp'.symm)
    rw [hl] at hunbound
    cases hunbound
  rw [hfold]
  refine (State.firstClaimed_holdsOne hrt first l).evaluatePins rfl hm h.once hbind fun p _ => ?_
  exact congrArg RequestInput.ignored (s.marksCleared_input p)

/-- The examination of the request inputs with an empty hold list: the first pin that asks claims, the later ones are refused. -/
theorem examinePins_examined (hm : s.sc.state = .member) (hrt : s.rt = .empty) (hdistinct : s.pinsDistinct) :
    s.pinsExamined (examinePins s) ∧ (examinePins s).hp = s.hp.noticed (s.pinRefusals s.au.replica.busSeq) := by
  rcases s.pinAsks_split with hnone | ⟨before, first, after, h⟩
  · rw [examinePins_eq, marksCleared_silent hrt fun p _ => hnone p]
    refine ⟨⟨fun _ => hrt, fun p l hp => ?_, fun p => ?_⟩, ?_⟩
    · rw [hnone p] at hp
      cases hp
    · rw [s.marksCleared_input, hnone p]
      rfl
    · rw [State.pinRefusals_eq, List.filter_eq_nil_iff.mpr fun p _ => by simp [hnone p]]
      simp [State.marksCleared]
  · obtain ⟨l, hl⟩ : ∃ l, requestBinding s first = some l := by
      have hasks := h.asks
      simp only [State.pinAsks, Bool.and_eq_true] at hasks
      exact Option.isSome_iff_exists.mp hasks.2
    have hrefused := examinePins_refused hm hrt hdistinct h hl
    refine ⟨⟨fun hnone => ?_, fun p k hp hbefore hk => ?_, fun p => ?_⟩, ?_⟩
    · have hasks := h.asks
      rw [hnone first] at hasks
      cases hasks
    · obtain rfl := h.first_of hp hbefore
      rw [hl] at hk
      cases hk
      refine ⟨by rw [hrefused.rt]; exact State.firstClaimed_holdsOne hrt p l, ?_⟩
      rw [hrefused.oq]
      simp [State.firstClaimed, placeEntry]
    · have hinput : (s.firstClaimed first l).ri.inputs[p] = { s.ri.inputs[p] with ignored := false } := s.marksCleared_input p
      rw [hrefused.inputs, hinput, s.firstClaimed_asks, h.later, Bool.false_or]
    · rw [hrefused.hp, h.refusals, s.firstClaimed_asks]
      rfl

/-- What the examination reads and what it says of the state after it. -/
theorem State.pinsExamined_congr (hri : u.ri = s.ri) (hconfig : u.sc.config = s.sc.config) (hrt : v.rt = t.rt) (hvri : v.ri = t.ri)
    (hoq : ∀ l, newEntry (.claim l .wait) ∈ t.oq.entries → newEntry (.claim l .wait) ∈ v.oq.entries) (h : u.pinsExamined t) :
    s.pinsExamined v := by
  have hasks : u.pinAsks = s.pinAsks := funext fun p => by rw [pinAsks, pinAsks, hri, requestBinding_congr hconfig]
  have hbefore : u.pinBefore = s.pinBefore := funext fun p => by rw [pinBefore, pinBefore, hasks]
  have hrecord : u.pinRecord = s.pinRecord := funext fun p => funext fun l => by
    rw [pinRecord, pinRecord, requestLimit_congr hconfig]
  obtain ⟨hnone, hclaim, hinput⟩ := h
  simp only [hasks, hbefore, hrecord, requestBinding_congr hconfig, hri] at hnone hclaim hinput
  refine ⟨fun h => hrt.trans (hnone h), fun p l hp hb hl => ?_, fun p => by rw [hvri]; exact hinput p⟩
  obtain ⟨hslots, hentry⟩ := hclaim p l hp hb hl
  exact ⟨by rw [hrt]; exact hslots, hoq l hentry⟩

theorem State.pinRefusals_congr (hri : u.ri = s.ri) (hconfig : u.sc.config = s.sc.config) (q : BusSeq) :
    u.pinRefusals q = s.pinRefusals q := by
  have hasks : u.pinAsks = s.pinAsks := funext fun p => by rw [pinAsks, pinAsks, hri, requestBinding_congr hconfig]
  have hbefore : u.pinBefore = s.pinBefore := funext fun p => by rw [pinBefore, pinBefore, hasks]
  simp only [pinRefusals, hasks, hbefore, requestBinding_congr hconfig]

/-! ### Entry to MEMBER -/

/-- The presence state on entry to MEMBER, and its notice (R61, R62, R66, R72). -/
theorem presenceEntry_entered (s : State) :
    (presenceEntry s).pm =
      { ownContact := 0, beaconAge := none,
        silence := tabulate fun m => if s.au.replica.roster[m] && m != s.station then some 0 else none,
        contact := false, quorum := decide (countOf s.au.replica.roster < quorumOf s),
        attained := !decide (countOf s.au.replica.roster < quorumOf s), stranding := none } ∧
    (presenceEntry s).hp = s.hp.noticed
      (fenceReport (false, false) (false, decide (countOf s.au.replica.roster < quorumOf s)) s.au.replica.busSeq) := by
  unfold presenceEntry
  cases hbelow : decide (countOf s.au.replica.roster < quorumOf s)
  · exact ⟨rfl, by simp [fenceReport]⟩
  · refine ⟨by simp, ?_⟩
    rw [if_pos rfl, stationNotice_hp]
    rfl

/-- Entry to MEMBER: the presence state, the notices in order, and the request inputs (R72, R79, R90, R139). -/
theorem enterMember_entered (k : NoticeKind) (hm : s.sc.state = .member) :
    (enterMember k s).pm = (presenceEntry s).pm ∧
    (s.rt = .empty → s.pinsDistinct → s.pinsExamined (enterMember k s) ∧
      (enterMember k s).hp = s.hp.noticed ({ stationNoticeOf k with busSeq := s.au.replica.busSeq }
        :: fenceReport (false, false) (false, (enterMember k s).pm.quorum) s.au.replica.busSeq
        ++ s.pinRefusals s.au.replica.busSeq)) := by
  obtain ⟨hpm, -⟩ := presenceEntry_entered s
  obtain ⟨hupm, huhp⟩ := presenceEntry_entered (stationNotice k none .none s)
  generalize hu : presenceEntry (stationNotice k none .none s) = u at *
  have henter : enterMember k s = examinePins u := by rw [enterMember, hu]
  have huf : u.sc = s.sc ∧ u.au = s.au ∧ u.rt = s.rt ∧ u.ri = s.ri := by rw [← hu]; simp
  obtain ⟨usc, uau, urt, uri⟩ := huf
  have hquorum : quorumOf (stationNotice k none .none s) = quorumOf s := by simp [quorumOf]
  have hpm' : (enterMember k s).pm = (presenceEntry s).pm := by
    rw [henter, hpm]
    simpa [hquorum] using hupm
  refine ⟨hpm', fun hrt hdistinct => ?_⟩
  have hconfig : u.sc.config = s.sc.config := congrArg _ usc
  obtain ⟨hexamined, hhp⟩ := examinePins_examined (by rw [usc]; exact hm) (urt.trans hrt) (hdistinct.congr hconfig)
  rw [← henter] at hexamined hhp
  refine ⟨State.pinsExamined_congr uri hconfig rfl rfl (fun _ => id) hexamined, ?_⟩
  have hq : (enterMember k s).pm.quorum = decide (countOf s.au.replica.roster < quorumOf s) := by rw [hpm', hpm]
  rw [hhp, huhp, uau, State.pinRefusals_congr uri hconfig, hq, stationNotice_hp, HostPort.noticed_append, HostPort.noticed_append]
  simp [hquorum, stationNoticeOf]

/-! ### FOUND -/

theorem founderRoster_get (k m : Station) : (addStation noStations k)[m] = decide (m = k) := by
  rw [addStation_get, noStations_get, Bool.or_false, decide_eq_decide.mpr eq_comm]

/-- The roster of a founder counts 1. -/
theorem countOf_founder (k : Station) : countOf (addStation noStations k) = 1 := by
  have hperm : (stationsOf (addStation noStations k)).Perm [k] :=
    (List.perm_ext_iff_of_nodup (stationsOf_nodup _) (List.nodup_singleton k)).mpr fun m => by
      rw [mem_stationsOf, founderRoster_get, decide_eq_true_eq, List.mem_singleton]
  exact hperm.length_eq

/-- The own FOUND accepted in FOUNDING, as the station enters MEMBER (R79, R152). -/
theorem ownFound_observed (h : s.sends rd f) (hk : f.kind = .found) (hs : s.sc.state = .founding) :
    ∃ w, exec (.foundFrame rd) s = .next (enterMember .founded w) ∧ w.sc = s.sc.inState .member ∧ w.rt = s.rt ∧ w.ri = s.ri ∧
      w.hp = s.hp ∧ w.station = s.station ∧ w.au.replica = founderReplica s.station := by
  obtain ⟨x, hx, -⟩ := acceptOwn_line s f rd
  have hexec := exec_frameCommand s f.kind rd
  obtain ⟨-, esc, -, ert, eri, ehp, -, estation, -, -⟩ := ownAccepted_effect f.kind (s.withLc x)
  generalize hw : ownAccepted f.kind (s.withLc x) = w at *
  have hws : w.sc.state = .founding := by rw [esc]; exact hs
  have hobserve : acceptFrame true f (s.withLc x) = found w := by
    have hnot : voting (s.withLc x).sc.state = false := by simp [hs, voting]
    simp only [acceptFrame, hnot, Bool.false_eq_true, if_false, if_true, hw]
    simp [observe, hws, hk]
  rw [acceptedFrame_sends s h, hx, hobserve, hk] at hexec
  refine ⟨(enterState .member w).withReplica (founderReplica w.station), hexec, ?_, ?_, ?_, ?_, ?_, ?_⟩
  · simp [enterState_sc, esc]
  · simp [enterState_rt, ert, show present .member = true from rfl]
  · simp [eri]
  · simp [ehp]
  · simp [estation]
  · simp [estation, State.withReplica]

theorem found_sent (h : s.sends rd f) (hk : f.kind = .found) (hs : s.sc.state = .founding) :
    ∃ t, exec (.foundFrame rd) s = .next t ∧ t.sc = s.sc.inState .member ∧
      t.au.replica = { Replica.cleared with busSeq := 1, roster := t.au.replica.roster } ∧
      (∀ m : Station, t.au.replica.roster[m] = decide (m = s.station)) ∧
      t.pm = { PresenceMonitor.idle with quorum := decide (1 < quorumOf s), attained := decide (quorumOf s ≤ 1) } ∧
      (s.rt = .empty → s.pinsDistinct →
        s.pinsExamined t ∧
        t.hp = s.hp.noticed ({ stationNoticeOf .founded with busSeq := 1 }
          :: fenceReport (false, false) (false, t.pm.quorum) 1 ++ s.pinRefusals 1)) := by
  obtain ⟨w, hexec, wsc, wrt, wri, whp, wstation, wreplica⟩ := ownFound_observed h hk hs
  have hconfig : w.sc.config = s.sc.config := by rw [wsc]; rfl
  have hquorum : quorumOf w = quorumOf s := by simp only [quorumOf, hconfig]
  obtain ⟨hpm, hpins⟩ := enterMember_entered (s := w) .founded (by rw [wsc]; rfl)
  have hreplica : (enterMember .founded w).au.replica = founderReplica s.station := by simp [wreplica]
  have hseq : w.au.replica.busSeq = 1 := by rw [wreplica]; rfl
  refine ⟨_, hexec, ?_, ?_, fun m => ?_, ?_, fun hrt hdistinct => ?_⟩
  · simpa using wsc
  · rw [hreplica]
    rfl
  · rw [hreplica]
    exact founderRoster_get _ m
  · rw [hpm, (presenceEntry_entered w).1, wreplica, hquorum, wstation]
    have hcount : countOf (founderReplica s.station).roster = 1 := countOf_founder s.station
    have hsilence : (tabulate fun m : Station => if (founderReplica s.station).roster[m] && m != s.station then some 0 else none)
        = PresenceMonitor.idle.silence := table_ext fun m => by
      rw [tabulate_get, founderReplica, founderRoster_get]
      by_cases hme : m = s.station <;> simp [hme, PresenceMonitor.idle]
    rw [hcount, hsilence, ← decide_not, decide_eq_decide.mpr (Nat.not_lt (a := 1))]
    rfl
  · obtain ⟨hexamined, hhp⟩ := hpins (wrt.trans hrt) (hdistinct.congr hconfig)
    refine ⟨State.pinsExamined_congr wri hconfig rfl rfl (fun _ => id) hexamined, ?_⟩
    rw [hhp, hseq, whp, State.pinRefusals_congr wri hconfig]

/-- Settles O37: a voting station sets the FOUND aside, and its sender enters MEMBER. -/
theorem foundFrameApplied : Obligations.FoundFrameApplied := by
  refine ⟨fun s rd f h hk => ?_, fun _ _ _ h hk hs => found_sent h hk hs⟩
  have hexec := acceptFrame_unchanged h (.inl (by simp [dispositionOf, hk]))
  rw [hk] at hexec
  exact ⟨_, hexec, keepFeeding_heard s rd⟩

end Sys2Proof.Machine
end

section
/-! PROOFS. ENROL (R42, R57, R62, R64, R66, R67, R70, R72, R90, R91): a station added at a receiver, and the own ENROL. -/

namespace Sys2Proof.Machine

variable {s t v w : State} {rd : Reading} {f : Frame} {rep : Report}

/-! ### How an ENROL reaches the blocks -/

/-- The report of an applied ENROL. -/
def enrolReport (own : Bool) (f : Frame) (result : EnrolResult) (added : Option Station) : Report :=
  { plainReport own f .applied with enrol := some result, added := added }

theorem applyKind_enrol (marks : Vector Bool 64) (same own : Bool) (r : Replica) (hk : f.kind = .enrol) :
    (r.roster[f.sender] = true → applyKind marks same own f r = (r, enrolReport own f .alreadyMember none)) ∧
    (r.roster[f.sender] = false → same = false → applyKind marks same own f r = (r, enrolReport own f .refusedProfile none)) ∧
    (r.roster[f.sender] = false → same = true → applyKind marks same own f r
      = ({ r with roster := addStation r.roster f.sender }, enrolReport own f .enrolled (some f.sender))) := by
  simp only [applyKind, hk]
  refine ⟨fun hr => ?_, fun hr hsame => ?_, fun hr hsame => ?_⟩
  · rw [if_pos hr]
    rfl
  · rw [if_neg (by simp [hr]), if_neg (by simp [hsame])]
    rfl
  · rw [if_neg (by simp [hr]), if_pos hsame]
    rfl

theorem dispositionOf_enrol (hk : f.kind = .enrol) {r : Replica} (hq : f.busSeq = r.busSeq) : dispositionOf r f = .applied := by
  simp [dispositionOf, hk, hq]

/-- The result of another station's ENROL moves no block: the Station Controller takes its own alone (R90). -/
theorem handOn_enrolResult (result : Option EnrolResult) (ho : rep.own = false) (s : State) :
    handOn { rep with enrol := result } s = handOn rep s := by
  have henrol : ∀ u, ownEnrol { rep with enrol := result } u = ownEnrol rep u := fun u => by simp [ownEnrol, ho]
  simp only [handOn, reactApplied, reactOther, stationReport, henrol]
  rfl

theorem enrol_received {r : Replica} {result : EnrolResult} {added : Option Station} (h : s.receives rd f) (hk : f.kind = .enrol)
    (hq : f.busSeq = s.au.replica.busSeq) (hr : r.busSeq = s.au.replica.busSeq)
    (happly : applyKind s.tc.uncollected (sameProfile s f.payload) false f s.au.replica
      = (r, enrolReport false f result added)) :
    exec (.enrolFrame rd) s = .next (handOn { plainReport false f .applied with added := added } (s.heardWith rd r)) := by
  have hexec := acceptFrame_applied s h (dispositionOf_enrol hk hq) fun _ => by rw [happly]; rfl
  rw [happly, hk] at hexec
  have hseq : ({ r with busSeq := s.au.replica.busSeq } : Replica) = r := by rw [← hr]
  have hreport := handOn_enrolResult (rep := { plainReport false f .applied with added := added }) (some result) rfl
    (s.heardWith rd r)
  rw [← hreport]
  dsimp only at hexec
  rw [hseq] at hexec
  exact hexec

/-! ### A station that is not added -/

theorem enrol_refused {result : EnrolResult} (h : s.receives rd f) (hk : f.kind = .enrol) (hq : f.busSeq = s.au.replica.busSeq)
    (happly : applyKind s.tc.uncollected (sameProfile s f.payload) false f s.au.replica
      = (s.au.replica, enrolReport false f result none)) :
    ∃ t, exec (.enrolFrame rd) s = .next t ∧ t.au = .after s.au.replica ∧ s.followed t rd f ∧ s.sameLocks t := by
  have hexec := enrol_received h hk hq rfl happly
  have hplain : ({ plainReport false f .applied with added := none } : Report).plain := by simp [plainReport, Report.plain]
  obtain ⟨hfollowed, hau⟩ := handOn_followed h (.after s.au.replica) hplain rfl rfl rfl
  exact ⟨_, hexec, hau, hfollowed, handOn_sameLocks h _ hplain rfl rfl (by simp [plainReport])⟩

/-! ### A station added -/

/-- The PEER_JOINED notice of a station with a bus sequence (R70, R197). -/
def peerJoinedAt (k : Station) (q : BusSeq) : Notice :=
  { kind := .peerJoined, lock := none, station := some k, generation := none, qualifier := .none, busSeq := q }

/-- The frame of another station restarts its silence timer, and its admission starts it again (R57, R71). -/
theorem heard_added (x : PresenceMonitor) (k : Station) :
    putAt (x.heard k).silence k (some 0) = putAt x.silence k (some 0) := by
  unfold PresenceMonitor.heard
  split
  · exact putAt_twice _ _ _ _
  · rfl

theorem memberHeard_pm (k : Station) (s : State) : (memberHeard k s).pm = s.pm.heard k := by
  unfold memberHeard PresenceMonitor.heard
  split <;> simp

/-- The presence state of a receiver after a member has joined, before the fence is looked at (R57, R66, R67, R70, R71). -/
theorem memberAdded_heard {k : Station} (hne : k ≠ s.station) :
    let v := memberAdded k (memberHeard k s)
    v.pm.silence = putAt s.pm.silence k (some 0) ∧ v.pm.contact = s.pm.contact ∧ v.pm.ownContact = s.pm.ownContact ∧
    (s.sc.state = .member → v.pm.quorum = decide (countOf s.au.replica.roster < quorumOf s) ∧
      v.pm.attained = (s.pm.attained || !v.pm.quorum) ∧
      v.pm.stranding = if v.pm.quorum = true ∧ v.pm.attained = true then some (s.pm.stranding.getD 0) else none) ∧
    v.hp = s.hp.noticed [peerJoinedAt k s.au.replica.busSeq] := by
  have hstation : k ≠ (memberHeard k s).station := by simpa using hne
  simp only [memberAdded, if_neg hstation]
  generalize hw : stationNotice .peerJoined (some k) .none
    ((memberHeard k s).withPm { (memberHeard k s).pm with silence := putAt (memberHeard k s).pm.silence k (some 0) }) = w
  have hpm : w.pm = { s.pm.heard k with silence := putAt s.pm.silence k (some 0) } := by
    rw [← hw]; simp [memberHeard_pm, heard_added]
  have hsc : w.sc = s.sc := by rw [← hw]; simp
  have hau : w.au = s.au := by rw [← hw]; simp
  have hhp : w.hp = s.hp.noticed [peerJoinedAt k s.au.replica.busSeq] := by
    rw [← hw, stationNotice_hp]; simp [peerJoinedAt]
  obtain ⟨hcontact, hown, hsilence⟩ := evaluateQuorum_timers w
  refine ⟨by rw [hsilence, hpm], by rw [hcontact, hpm]; rfl, by rw [hown, hpm]; rfl, fun hm => ?_, by simp [hhp]⟩
  obtain ⟨hq, ha, hst, -⟩ := evaluateQuorum_member (s := w) (by rw [hsc]; exact hm)
  have hquorum : quorumOf w = quorumOf s := by simp only [quorumOf, hsc]
  exact ⟨by rw [hq, hau, hquorum], by rw [ha, hpm]; rfl, by rw [hst, hpm]; rfl⟩

/-- The report of an added station, taken by the presence state and the queue. -/
theorem handOn_added (k : Station) (hv : voting s.sc.state = true) (hc : s.sc.state = .collecting → s.tc.collected ≤ 15) :
    handOn { plainReport false f .applied with added := some k } s = revalidate (keepFeeding
      (if present s.sc.state then
        revalidateEvict (fenceChanged (fenceSet s) (fenceSet (memberAdded k (memberHeard f.sender s)))
          (memberAdded k (memberHeard f.sender s)))
      else s)) := by
  generalize hrep : ({ plainReport false f .applied with added := some k } : Report) = rep
  generalize hu : memberAdded k (memberHeard f.sender s) = v
  have hout : takeOutcomes rep.outcomes s = s := takeOutcomes_none s (by simp [← hrep, plainReport])
  have hholds : departHolds rep s = s := by simp [departHolds, ← hrep, plainReport]
  have hreport : presenceReport rep s = fenceChanged (fenceSet s) (fenceSet v) v := by
    have hheard : fenceSet (memberHeard f.sender s) = fenceSet s := by simp [fenceSet, memberHeard_pm, PresenceMonitor.heard]
    simp [presenceReport, senderReport, addedReport, removedReport, ← hrep, plainReport, hu, hheard, fenceChanged_same]
  have hreact : presenceReactions rep s
      = if present s.sc.state then revalidateEvict (fenceChanged (fenceSet s) (fenceSet v) v) else s := by
    have houst : ousts rep s = false := by simp [ousts, ← hrep, plainReport]
    simp only [presenceReactions, hreport, houst, Bool.false_eq_true, if_false]
    simp [← hrep, plainReport]
  have hstation : ∀ u : State, (u.sc.state = .collecting → u.tc.collected ≤ 15) → stationReport rep u = u := fun u hcol => by
    have hcalm := stationReport_calm u (rep := plainReport false f .applied) (by simp [Report.plain, plainReport]) rfl hcol
    rw [← hrep]
    exact hcalm
  have hvsc : v.sc = s.sc ∧ v.tc = s.tc := by rw [← hu]; simp
  obtain ⟨vsc, vtc⟩ := hvsc
  have hsc : (if present s.sc.state then revalidateEvict (fenceChanged (fenceSet s) (fenceSet v) v) else s).sc = s.sc := by
    split <;> simp [vsc]
  have htc : (if present s.sc.state then revalidateEvict (fenceChanged (fenceSet s) (fenceSet v) v) else s).tc = s.tc := by
    split <;> simp [vtc]
  have happlied : rep.disposition = .applied := by rw [← hrep]; rfl
  simp only [handOn, happlied, if_true, reactApplied, hout, hholds, hreact, hstation _ (by rw [hsc, htc]; exact hc), keepFeeding_frame,
    hsc, hv]

/-- What an added station leaves as it was, whatever the station state. -/
theorem handOn_added_kept (k : Station) (hv : voting s.sc.state = true) (hc : s.sc.state = .collecting → s.tc.collected ≤ 15) :
    let t := handOn { plainReport false f .applied with added := some k } s
    t.sc = s.sc ∧ t.tc = s.tc ∧ t.lc = s.lc ∧ t.rt = s.rt ∧ t.ri = s.ri ∧ t.au = s.au := by
  intro t
  have ht : t = _ := handOn_added k hv hc
  rw [ht]
  split <;> simp

/-- What a station with presence duties makes of it (R57, R61, R62, R64, R66, R67, R70). -/
theorem handOn_added_present (hp : present s.sc.state = true) (hne : f.sender ≠ s.station) :
    let t := handOn { plainReport false f .applied with added := some f.sender } s
    t.pm.silence = putAt s.pm.silence f.sender (some 0) ∧ t.pm.contact = s.pm.contact ∧ t.pm.ownContact = s.pm.ownContact ∧
    (s.sc.state = .member → s.quorumFollows t) ∧ s.guardsMoved t ∧
    t.hp = s.hp.noticed (peerJoinedAt f.sender s.au.replica.busSeq
      :: fenceReport (fenceSet s) (fenceSet t) s.au.replica.busSeq) := by
  intro t
  have hv : voting s.sc.state = true := by revert hp; cases s.sc.state <;> simp [present, voting]
  have hc : s.sc.state = .collecting → s.tc.collected ≤ 15 := fun h => by rw [h] at hp; cases hp
  obtain ⟨-, -, -, -, -, tau⟩ := handOn_added_kept (f := f) f.sender hv hc
  have ht : t = _ := handOn_added f.sender hv hc
  rw [if_pos hp] at ht
  obtain ⟨vsilence, vcontact, vown, vquorum, vhp⟩ := memberAdded_heard (s := s) hne
  generalize hu : memberAdded f.sender (memberHeard f.sender s) = v at *
  have hvf : v.sc = s.sc ∧ v.au = s.au ∧ v.rt = s.rt ∧ v.gl = s.gl := by rw [← hu]; simp
  obtain ⟨vsc, vau, vrt, vgl⟩ := hvf
  have tpm : t.pm = v.pm := by
    rw [ht, revalidate_pm_present _ (by simpa [vsc] using hp)]
    simp
  have hset : fenceSet t = fenceSet v := by simp only [fenceSet, tpm]
  refine ⟨by rw [tpm, vsilence], by rw [tpm, vcontact], by rw [tpm, vown], fun hm => ?_, ?_, ?_⟩
  · obtain ⟨hq, ha, hst⟩ := vquorum hm
    rw [State.quorumFollows, tpm, show t.au = s.au from tau]
    exact ⟨hq, ha, hst⟩
  · refine State.guardsMoved_of (x := fenceNotices (fenceSet s) (fenceSet v) v) ?_ ?_ ?_ ?_
    · simpa using vgl
    · simpa using vsc
    · simp [ht]
    · rw [hset]
      simp [ht, fenceChanged]
  · rw [hset]
    simp [ht, fenceChanged, fenceNotices_hp, vau, vhp, HostPort.noticed_append]

theorem enrol_added (h : s.receives rd f) (hk : f.kind = .enrol) (hq : f.busSeq = s.au.replica.busSeq)
    (hr : s.au.replica.roster[f.sender] = false) (hsame : sameProfile s f.payload = true) :
    ∃ t, exec (.enrolFrame rd) s = .next t ∧ t.sc = s.sc ∧ t.tc = s.tc ∧ t.lc = s.lc.heard rd.cells ∧ t.rt = s.rt ∧
      t.ri = s.ri ∧ t.au = .after { s.au.replica with roster := putAt s.au.replica.roster f.sender true } ∧
      (present s.sc.state = true → f.sender ≠ s.station →
        t.pm.silence = putAt s.pm.silence f.sender (some 0) ∧ t.pm.contact = s.pm.contact ∧
        t.pm.ownContact = s.pm.ownContact ∧ (s.sc.state = .member → s.quorumFollows t) ∧ s.guardsMoved t ∧
        t.hp = s.hp.noticed (peerJoinedAt f.sender (s.au.replica.busSeq + 1)
          :: fenceReport (fenceSet s) (fenceSet t) (s.au.replica.busSeq + 1))) := by
  obtain ⟨-, -, happly⟩ := applyKind_enrol s.tc.uncollected (sameProfile s f.payload) false s.au.replica hk
  have hexec := enrol_received (r := { s.au.replica with roster := addStation s.au.replica.roster f.sender }) h hk hq rfl
    (happly hr hsame)
  have hv : voting s.sc.state = true := h.2.1
  obtain ⟨tsc, ttc, tlc, trt, tri, tau⟩ := handOn_added_kept (f := f) f.sender
    (s := s.heardWith rd { s.au.replica with roster := addStation s.au.replica.roster f.sender }) hv h.2.2
  exact ⟨_, hexec, tsc, ttc, tlc, trt, tri, tau, fun hp hne => handOn_added_present
    (s := s.heardWith rd { s.au.replica with roster := addStation s.au.replica.roster f.sender }) hp hne⟩

/-! ### The own ENROL -/

/-- The own ENROL applied in ENROLLING: the Station Controller alone acts on its result (R90, R91, R152). -/
theorem enrol_sent {r : Replica} {result : EnrolResult} {added : Option Station} (h : s.sends rd f) (hk : f.kind = .enrol)
    (hs : s.sc.state = .enrolling) (hq : f.busSeq = s.au.replica.busSeq)
    (happly : applyKind s.tc.uncollected (sameProfile s f.payload) true f s.au.replica
      = (r, enrolReport true f result added)) :
    ∃ w, exec (.enrolFrame rd) s = .next (handOn (enrolReport true f result added) w) ∧
      w.au = { s.au with replica := { r with busSeq := s.au.replica.busSeq + 1 } } ∧ w.sc = s.sc ∧ w.tc = s.tc ∧
      w.rt = s.rt ∧ w.ri = s.ri ∧ w.hp = s.hp ∧ w.station = s.station := by
  obtain ⟨x, -, hexec⟩ := acceptOwn_applied s h (by rw [hs]; rfl) (dispositionOf_enrol hk hq) fun _ => by rw [happly]; rfl
  rw [happly] at hexec
  obtain ⟨eau, esc, etc, ert, eri, ehp, -, estation, -, -⟩ := ownAccepted_effect f.kind
    ((s.withLc x).withAu { s.au with replica := { r with busSeq := s.au.replica.busSeq + 1 } })
  refine ⟨_, ?_, eau, esc, etc, ert, eri, ehp, estation⟩
  rw [hk] at hexec ⊢
  exact hexec

/-- In ENROLLING the report of the own ENROL is the Station Controller's. -/
theorem handOn_ownEnrol {result : EnrolResult} {added : Option Station} (hk : f.kind = .enrol) (hs : s.sc.state = .enrolling)
    (hst : stationReport (enrolReport true f result added) s = t) (hv : voting t.sc.state = true) :
    handOn (enrolReport true f result added) s = revalidate (keepFeeding t) := by
  have hout : takeOutcomes (enrolReport true f result added).outcomes s = s :=
    takeOutcomes_none s (by simp [enrolReport, plainReport])
  have hholds : departHolds (enrolReport true f result added) s = s := by simp [departHolds, enrolReport, plainReport, hk]
  have hreact : presenceReactions (enrolReport true f result added) s = s := by simp [presenceReactions, hs, present]
  have happlied : (enrolReport true f result added).disposition = .applied := rfl
  simp only [handOn, happlied, if_true, reactApplied, hout, hholds, hreact, hst, keepFeeding_frame, hv]

/-- The own ENROL granted: MEMBER (R72, R90, R139). -/
theorem stationReport_enrolled {added : Option Station} (hk : f.kind = .enrol) (hs : s.sc.state = .enrolling) :
    stationReport (enrolReport true f .enrolled added) s = enterMember .joined (enterState .member s) := by
  have hdepart : ownDepart (enrolReport true f .enrolled added) s = s := by simp [ownDepart, enrolReport, plainReport, hk]
  have henrol : ownEnrol (enrolReport true f .enrolled added) s = enterMember .joined (enterState .member s) := by
    rw [ownEnrol, if_pos ⟨rfl, hs⟩]
    rfl
  have hmember : (enterMember .joined (enterState .member s)).sc.state = .member := by simp [enterState_sc]; rfl
  rw [stationReport, hdepart, henrol]
  generalize enterMember .joined (enterState .member s) = u at hmember
  simp [roundBroken, collectionDone, hmember, enrolReport, plainReport]

/-- The own ENROL of a station that the roster names: a DEPART of its stale membership (R91). -/
theorem stationReport_alreadyMember {added : Option Station} (hk : f.kind = .enrol) (hs : s.sc.state = .enrolling) :
    stationReport (enrolReport true f .alreadyMember added) s
      = placeEntry .depart (s.withSc { s.sc with staleMark := true }) := by
  have hdepart : ownDepart (enrolReport true f .alreadyMember added) s = s := by simp [ownDepart, enrolReport, plainReport, hk]
  have henrol : ownEnrol (enrolReport true f .alreadyMember added) s
      = placeEntry .depart (s.withSc { s.sc with staleMark := true }) := by
    rw [ownEnrol, if_pos ⟨rfl, hs⟩]
    rfl
  have hstill : (placeEntry .depart (s.withSc { s.sc with staleMark := true })).sc.state = .enrolling := hs
  rw [stationReport, hdepart, henrol]
  generalize placeEntry .depart (s.withSc { s.sc with staleMark := true }) = u at hstill
  simp [roundBroken, collectionDone, hstill, enrolReport, plainReport]

theorem enrol_joins (h : s.sends rd f) (hk : f.kind = .enrol) (hq : f.busSeq = s.au.replica.busSeq) (hme : f.sender = s.station)
    (hs : s.sc.state = .enrolling) (hr : s.au.replica.roster[s.station] = false) (hsame : sameProfile s f.payload = true) :
    ∃ t, exec (.enrolFrame rd) s = .next t ∧ t.sc = s.sc.inState .member ∧
      t.au.replica = { s.au.replica with
        busSeq := s.au.replica.busSeq + 1, roster := putAt s.au.replica.roster s.station true } ∧
      t.pm.ownContact = 0 ∧ t.pm.beaconAge = none ∧ t.pm.contact = false ∧ t.pm.stranding = none ∧
      t.pm.quorum = decide (countOf t.au.replica.roster < quorumOf s) ∧ t.pm.attained = !t.pm.quorum ∧
      (∀ m : Station, t.pm.silence[m] = if m ≠ s.station ∧ s.au.replica.roster[m] = true then some 0 else none) ∧
      (s.rt = .empty → s.pinsDistinct →
        s.pinsExamined t ∧
        t.hp = s.hp.noticed ({ stationNoticeOf .joined with busSeq := s.au.replica.busSeq + 1 }
          :: fenceReport (false, false) (false, t.pm.quorum) (s.au.replica.busSeq + 1)
          ++ s.pinRefusals (s.au.replica.busSeq + 1))) := by
  obtain ⟨-, -, happly⟩ := applyKind_enrol s.tc.uncollected (sameProfile s f.payload) true s.au.replica hk
  obtain ⟨w, hexec, wau, wsc, wtc, wrt, wri, whp, wstation⟩ := enrol_sent h hk hs hq (happly (by simpa only [hme] using hr) hsame)
  have hws : w.sc.state = .enrolling := by rw [wsc]; exact hs
  generalize hu : enterState .member w = u at *
  have husc : u.sc = s.sc.inState .member := by rw [← hu, enterState_sc, wsc]
  have huau : u.au = w.au := by
    rw [← hu, enterState_au, hws]
    rfl
  have hurest : u.rt = s.rt ∧ u.ri = s.ri ∧ u.hp = s.hp ∧ u.station = s.station := by
    rw [← hu]
    simp [enterState_rt, wrt, wri, whp, wstation, show present .member = true from rfl]
  obtain ⟨urt, uri, uhp, ustation⟩ := hurest
  have huroster : u.au.replica.roster = putAt s.au.replica.roster s.station true := by rw [huau, wau, ← hme]; rfl
  have huseq : u.au.replica.busSeq = s.au.replica.busSeq + 1 := by rw [huau, wau]
  have hconfig : u.sc.config = s.sc.config := by rw [husc]; rfl
  have hquorum : quorumOf u = quorumOf s := by simp only [quorumOf, hconfig]
  obtain ⟨mpm, mpins⟩ := enterMember_entered (s := u) .joined (by rw [husc]; rfl)
  generalize hm : enterMember .joined u = m at *
  have hmf : m.sc = u.sc ∧ m.au = u.au := by rw [← hm]; simp
  obtain ⟨msc, mau⟩ := hmf
  have hhand := handOn_ownEnrol (t := m) (added := some f.sender) hk hws (by rw [stationReport_enrolled hk hws, hu, hm])
    (by rw [msc, husc]; rfl)
  rw [hhand] at hexec
  generalize ht : revalidate (keepFeeding m) = t at *
  have htf : t.sc = m.sc ∧ t.au = m.au ∧ t.rt = m.rt ∧ t.ri = m.ri ∧ t.hp = m.hp := by rw [← ht]; simp
  obtain ⟨tsc, tau, trt, tri, thp⟩ := htf
  have tpm : t.pm = (presenceEntry u).pm := by
    rw [← ht, revalidate_pm_present _ (by simp [msc, husc]; rfl)]
    simpa using mpm
  have troster : t.au.replica.roster = putAt s.au.replica.roster s.station true := by rw [tau, mau, huroster]
  have tquorum : t.pm.quorum = decide (countOf t.au.replica.roster < quorumOf s) := by
    rw [tpm, (presenceEntry_entered u).1, troster, huroster, hquorum]
  rw [(presenceEntry_entered u).1] at tpm
  refine ⟨t, hexec, by rw [tsc, msc, husc], ?_, by rw [tpm], by rw [tpm], by rw [tpm], by rw [tpm], tquorum, by rw [tpm],
    fun k => ?_, fun hrt hdistinct => ?_⟩
  · rw [tau, mau, huau, wau, hme]
    rfl
  · rw [tpm]
    simp only [tabulate_get, huroster, ustation, putAt_get]
    by_cases hk : s.station = k
    · subst hk
      simp
    · have hk' : k ≠ s.station := fun heq => hk heq.symm
      simp [hk, hk']
  · obtain ⟨hexamined, mhp⟩ := mpins (urt.trans hrt) (hdistinct.congr hconfig)
    have hclaims : ∀ l, newEntry (.claim l .wait) ∈ m.oq.entries → newEntry (.claim l .wait) ∈ t.oq.entries := fun l hl => by
      rw [← ht]
      exact (mem_revalidate_fed hl (by simp [newEntry, ownerOf]) fun _ => rfl).2
    refine ⟨State.pinsExamined_congr uri hconfig trt tri hclaims hexamined, ?_⟩
    have hmquorum : m.pm.quorum = t.pm.quorum := by rw [mpm, (presenceEntry_entered u).1, tpm]
    rw [thp, mhp, huseq, uhp, hmquorum, State.pinRefusals_congr uri hconfig]

theorem enrol_stale (h : s.sends rd f) (hk : f.kind = .enrol) (hq : f.busSeq = s.au.replica.busSeq) (hme : f.sender = s.station)
    (hs : s.sc.state = .enrolling) (hr : s.au.replica.roster[s.station] = true) :
    ∃ t, exec (.enrolFrame rd) s = .next t ∧ t.sc = { s.sc with staleMark := true } ∧ t.hp = s.hp ∧
      newEntry .depart ∈ t.oq.entries ∧ t.au.replica = { s.au.replica with busSeq := s.au.replica.busSeq + 1 } := by
  obtain ⟨happly, -, -⟩ := applyKind_enrol s.tc.uncollected (sameProfile s f.payload) true s.au.replica hk
  obtain ⟨w, hexec, wau, wsc, -, -, -, whp, -⟩ := enrol_sent h hk hs hq (happly (by simpa only [hme] using hr))
  have hws : w.sc.state = .enrolling := by rw [wsc]; exact hs
  rw [handOn_ownEnrol hk hws (stationReport_alreadyMember hk hws) (by simp [hws, voting])] at hexec
  refine ⟨_, hexec, ?_, ?_, ?_, ?_⟩
  · simp [wsc]
  · simp [whp]
  · exact (mem_revalidate_fed (by simp [placeEntry]) (by simp [newEntry, ownerOf]) fun _ => rfl).2
  · simp [wau]

/-- Settles O36: the three rows of R42 at a receiver, and the two ends of the own ENROL. -/
theorem enrolFrameApplied : Obligations.EnrolFrameApplied := by
  intro s rd f hk hq
  refine ⟨fun h => ?_, fun h hme hs => ⟨enrol_joins h hk hq hme hs, enrol_stale h hk hq hme hs⟩⟩
  obtain ⟨hmember, hprofile, -⟩ := applyKind_enrol s.tc.uncollected (sameProfile s f.payload) false s.au.replica hk
  by_cases hadds : s.au.replica.roster[f.sender] = false ∧ sameProfile s f.payload = true
  · obtain ⟨hr, hsame⟩ := hadds
    obtain ⟨t, hexec, tsc, ttc, tlc, trt, tri, tau, tpresent⟩ := enrol_added h hk hq hr hsame
    refine ⟨t, hexec, tsc, ttc, tlc, trt, tri, fun hno => ?_, fun _ _ => ⟨tau, tpresent⟩⟩
    rcases hno with hno | hno
    · rw [hr] at hno
      cases hno
    · rw [hsame] at hno
      cases hno
  · have hrefused : ∃ t, exec (.enrolFrame rd) s = .next t ∧ t.au = .after s.au.replica ∧ s.followed t rd f ∧ s.sameLocks t := by
      cases hr : s.au.replica.roster[f.sender] with
      | true => exact enrol_refused h hk hq (hmember hr)
      | false => exact enrol_refused h hk hq (hprofile hr (by simpa [hr] using hadds))
    obtain ⟨t, hexec, tau, tfollowed, tlocks⟩ := hrefused
    obtain ⟨-, -, -, tsc, ttc, tlc, -, -⟩ := id tfollowed
    obtain ⟨trt, -, tri, -, -⟩ := id tlocks
    exact ⟨t, hexec, tsc, ttc, tlc, trt, tri, fun _ => ⟨tau, tfollowed, tlocks⟩, fun hr hsame => absurd ⟨hr, hsame⟩ hadds⟩

end Sys2Proof.Machine
end

section
/-! PROOFS. The limits of the Presence Monitor (R54, R56, R58, R61 to R63, R68): the beacon limits, the absence limit with the eviction
decision it takes, the fence limit and the stranding limit. -/

namespace Sys2Proof.Machine

variable {s : State}

/-! ### What stands in the queue -/

theorem ownerOf_beacon (c : Content) : ownerOf c = .beacon ↔ c = .beacon := by
  cases c <;> simp [ownerOf]

theorem ownerOf_evict (c : Content) : ownerOf c = .evict ↔ ∃ m, c = .evict m := by
  cases c <;> simp [ownerOf]

theorem hasEntry_true (o : Owner) : hasEntry o s = true ↔ ∃ e ∈ s.oq.entries, ownerOf e.content = o := by
  simp [hasEntry, List.any_eq_true]

theorem hasEntry_false (o : Owner) : hasEntry o s = false ↔ ∀ e ∈ s.oq.entries, ownerOf e.content ≠ o := by
  simp [hasEntry, List.any_eq_false]

/-! ### The beacon limits -/

/-- At P without a BEACON in the queue one is placed, of age 0; with one there the timer alone moves (R54). -/
theorem contactDue_cases (s : State) :
    (hasEntry .beacon s = false → contactDue s
      = { s with pm := { s.pm with ownContact := max s.pm.ownContact (beaconPeriod s), beaconAge := some 0 },
                 oq := { entries := s.oq.entries ++ [newEntry .beacon] } }) ∧
    (hasEntry .beacon s = true → contactDue s
      = { s with pm := { s.pm with ownContact := max s.pm.ownContact (beaconPeriod s) } }) := by
  unfold contactDue
  refine ⟨fun h => ?_, fun h => ?_⟩ <;> rw [h] <;> rfl

theorem promoteEntry_other {e : Entry} (h : e.content ≠ .beacon) : promoteEntry e = e := by
  rw [promoteEntry, if_neg (by rwa [ownerOf_beacon])]

/-- Of the entries the one BEACON is promoted (R56). -/
theorem map_promoteEntry {before after : List Entry} {e : Entry} (he : e.content = .beacon)
    (h : ∀ x ∈ before ++ after, x.content ≠ .beacon) :
    (before ++ e :: after).map promoteEntry = before ++ { e with cls := 1 } :: after := by
  have hbefore : before.map promoteEntry = before :=
    (List.map_congr_left fun x hx => promoteEntry_other (h x (List.mem_append_left _ hx))).trans (List.map_id' before)
  have hafter : after.map promoteEntry = after :=
    (List.map_congr_left fun x hx => promoteEntry_other (h x (List.mem_append_right _ hx))).trans (List.map_id' after)
  have hbeacon : promoteEntry e = { e with cls := 1 } := by rw [promoteEntry, if_pos ((ownerOf_beacon _).mpr he)]
  rw [List.map_append, List.map_cons, hbefore, hafter, hbeacon]

/-! ### The eviction decision -/

theorem overAbsence_iff (m : Station) :
    overAbsence s m = true ↔ ∃ a, s.pm.silence[m] = some a ∧ 5 * beaconPeriod s ≤ a := by
  unfold overAbsence
  cases s.pm.silence[m] <;> simp

theorem overAbsence_false (m : Station) :
    overAbsence s m = false ↔ ∀ a, s.pm.silence[m] = some a → a < 5 * beaconPeriod s := by
  unfold overAbsence
  cases s.pm.silence[m] <;> simp

/-- The station evicted is the lowest-numbered one at or above the limit (R58). -/
theorem evictionTarget_some (m : Station) :
    evictionTarget s = some m ↔ overAbsence s m = true ∧ ∀ k : Station, k < m → overAbsence s k = false := by
  rw [evictionTarget, ← Fin.find?_eq_find?_finRange, Fin.find?_eq_some_iff]

theorem evictionTarget_none : evictionTarget s = none ↔ ∀ m, overAbsence s m = false := by
  simp [evictionTarget, List.find?_eq_none]

/-- What the eviction decision does to the queue (R58). -/
theorem decideEviction_cases (hp : present s.sc.state = true) :
    (hasEntry .evict s = true ∨ evictionTarget s = none → decideEviction s = s) ∧
    (∀ m, hasEntry .evict s = false → evictionTarget s = some m → decideEviction s = placeEntry (.evict m) s) := by
  unfold decideEviction
  refine ⟨fun h => ?_, fun m hno hm => ?_⟩
  · rcases h with h | h <;> simp [h]
  · simp [hp, hno, hm]

/-! ### The obligations on presence -/

/-- The absence limit of a member: its timer stands at 5P at least, and the eviction decision is taken (R58). -/
theorem execAbsenceLimit_some {m : Station} {a : Nat} (hm : s.pm.silence[m] = some a) :
    exec (.absenceLimit m) s = .next (decideEviction (s.withPm { s.pm with
      silence := putAt s.pm.silence m (some (max a (5 * beaconPeriod s))) })) := by
  simp only [exec, execAbsenceLimit, hm, reached]

theorem decideEviction_queue (s : State) : decideEviction s = { s with oq := (decideEviction s).oq } := by
  unfold decideEviction
  (repeat' split) <;> rfl

/-- Settles O45: the queue decides whether a BEACON or an EVICT is placed; the target of the EVICT is the first member over the limit. -/
theorem presenceTimers : Obligations.PresenceTimers := by
  intro s
  refine ⟨fun hp hnone => ?_, fun hp hbeacon => ?_, fun before after e a hq he hother hage => ?_, fun m a hp hm => ?_⟩
  · have hentry : hasEntry .beacon s = false := (hasEntry_false _).mpr fun e he => by
      rw [Ne, ownerOf_beacon]
      exact hnone e he
    simp only [exec, execOwnContactReachesP, hp, if_true, (contactDue_cases s).1 hentry]
    rfl
  · have hentry : hasEntry .beacon s = true := (hasEntry_true _).mpr (by simpa only [ownerOf_beacon] using hbeacon)
    simp only [exec, execOwnContactReachesP, hp, if_true, (contactDue_cases s).2 hentry]
  · have hentry : hasEntry .beacon s = true :=
      (hasEntry_true _).mpr ⟨e, by simp [hq], (ownerOf_beacon _).mpr he⟩
    simp only [exec, execBeaconPromoted, hentry, hage, Option.isSome_some, Bool.and_self, if_true, promoteBeacon, hq,
      map_promoteEntry he hother]
    rfl
  · rw [execAbsenceLimit_some hm]
    generalize hw : s.withPm { s.pm with silence := putAt s.pm.silence m (some (max a (5 * beaconPeriod s))) } = w
    have hwp : present w.sc.state = true := by rw [← hw]; exact hp
    have hover : overAbsence w m = true := (overAbsence_iff m).mpr ⟨max a (5 * beaconPeriod s), by
      rw [← hw]; exact ⟨putAt_get_self _ _ _, le_max_right _ _⟩⟩
    have hpm : (decideEviction w).pm = { s.pm with silence := putAt s.pm.silence m (some (max a (5 * beaconPeriod s))) } := by
      rw [← hw]; simp
    obtain ⟨hkept, hplaced⟩ := decideEviction_cases hwp
    refine ⟨_, rfl, ?_, hpm, fun hevict => ?_, fun hnone => ?_⟩
    · rw [hpm, decideEviction_queue w, ← hw]
      rfl
    · have hentry : hasEntry .evict w = true := (hasEntry_true _).mpr (by
        simpa only [ownerOf_evict, ← hw, State.withPm_oq] using hevict)
      rw [hkept (.inl hentry), ← hw]
      rfl
    · have hentry : hasEntry .evict w = false := (hasEntry_false _).mpr fun e he ho => by
        obtain ⟨x, hx⟩ := (ownerOf_evict _).mp ho
        rw [← hw] at he
        exact hnone e he x hx
      cases htarget : evictionTarget w with
      | none =>
        rw [evictionTarget_none.mp htarget m] at hover
        cases hover
      | some x =>
        obtain ⟨hx, hleast⟩ := (evictionTarget_some x).mp htarget
        obtain ⟨b, hb, hlimit⟩ := (overAbsence_iff x).mp hx
        have hperiod : beaconPeriod w = beaconPeriod s := by rw [← hw]; rfl
        have hsame : (decideEviction w).pm = w.pm := by simp
        rw [hperiod] at hlimit
        refine ⟨x, b, by rw [hsame]; exact hb, hlimit, fun k c hk hc => ?_, ?_⟩
        · rw [hsame] at hc
          rw [← hperiod]
          exact (overAbsence_false k).mp (hleast k hk) c hc
        · rw [hplaced x hentry htarget, ← hw]
          rfl

/-- CONTACT enters the fence set of a MEMBER that does not have it (R61, R62, R63, R130). -/
theorem contactFence_fenced (hc : s.pm.contact = false) :
    (contactFence s).pm = { s.pm with ownContact := max s.pm.ownContact (3 * beaconPeriod s), contact := true } ∧
    (contactFence s).gl = (if s.pm.quorum then s.gl else .stopped) ∧
    (contactFence s).hp = s.hp.noticed [fenceNoticeOf .fenced .contact s.au.replica.busSeq] := by
  refine ⟨by simp [contactFence, reached], ?_, ?_⟩
  · simp only [contactFence, fenceChanged, fenceSet, State.withPm_pm, hc]
    cases hq : s.pm.quorum <;> simp [fenceGuards, stopAllGuards]
  · simp only [contactFence, fenceChanged_hp, fenceSet, State.withPm_pm, State.withPm_hp, State.withPm_au, hc]
    simp [fenceReport]

theorem contactFence_only (s : State) :
    contactFence s = { s with pm := (contactFence s).pm, gl := (contactFence s).gl, hp := (contactFence s).hp } := by
  obtain ⟨hin, hst, hrate, hlc, hau, hsc, htc, hrt, hoq, hri, hch, hpend⟩ := contactFence_frame s
  generalize contactFence s = t at *
  cases t
  simp_all

/-- A station fenced by CONTACT drives no grant line (R63, R129). -/
theorem contact_inactive (h : s.pm.contact = true) (n : GrantLine) : grantActive s n = false := by
  simp [grantActive, fenced, h]

/-- Settles O46: one change of the fence set, and the drop with cause STRANDED. -/
theorem fenceAndStranding : Obligations.FenceAndStranding := by
  intro s hm
  refine ⟨fun hc => ?_, fun hrun => ?_⟩
  · obtain ⟨hpm, hgl, hhp⟩ := contactFence_fenced hc
    refine ⟨contactFence s, by simp only [exec, execFenceLimit, hm, if_true], contactFence_only s, hpm, ?_, hgl, hhp⟩
    exact contact_inactive (by rw [hpm])
  · obtain ⟨hoff, hhp, hsc, -⟩ := drop_dropped s .stranding (by rw [hm]; rfl)
    refine ⟨drop .stranding s, by simp only [exec, execStranding, hrun, if_true], hoff, hhp, ?_, by rw [hsc]; rfl⟩
    rw [hsc]
    simp [StationController.inState, dropState, rejoinsAfter, hm]

end Sys2Proof.Machine
end

section
/-! PROOFS. LEAVE at the host port (R73, R92, R121, R123, R132, R154). -/

namespace Sys2Proof.Machine

variable {s : State}

/-- A command without arguments, taken: its block acts on the state with the command byte received, and the answer is held (R181, R182). -/
theorem takeCommand_open {c : HostCommand} (act : State → Answer) (hport : portOpen s = true)
    (hc : commandOfCode (codeOf c) = some c) (hargs : argumentBytes c = 0) :
    takeCommand c [] act s
      = holdResult (act (s.withHp { s.hp with phase := .turnaround, bits := 8, taken := some c })) := by
  have hphase : s.hp.phase = .command := by
    simp only [portOpen, Bool.and_eq_true, beq_iff_eq] at hport
    exact hport.2
  simp only [takeCommand, takeTransaction, hport, if_true, List.foldl_cons, List.foldl_nil, receiveByte, hphase, hc, takeBytes,
    Option.map_some, hargs, Option.getD_some, if_true]

/-- The state in which the Station Controller takes LEAVE. -/
def State.leaveReceived (s : State) : State := s.withHp { s.hp with phase := .turnaround, bits := 8, taken := some .leave }

theorem exec_leave (hport : portOpen s = true) : exec .leaveCommand s = .next (holdResult (answerLeave s.leaveReceived)) := by
  have htake := takeCommand_open (c := .leave) answerLeave hport rfl rfl
  exact congrArg Host.Outcome.next htake

/-- An answer without data, held at the port as the table has it (R182, R206). -/
theorem holdResult_answered {t : State} (code : ResultCode) (h : t.hp = s.leaveReceived.hp) :
    (holdResult (answer code t)).hp = s.hp.answered .leave 1 code [] := by
  simp [holdResult, answer, h, State.leaveReceived, HostPort.answered]

/-- A record that LEAVE stops: its hold timer and its deferred YIELD (R102, R121, R123). -/
theorem leaveHolds_slot (i : Tier) (s : State) : (leaveHolds s).rt.slots[i] = (s.rt.slots[i]).map fun r =>
    { r with holdTimer := none, deferred := none,
             withdrawAsked := r.withdrawAsked && (slotContends .withdraw i s || slotContends .claim i s) } := by
  rw [leaveHolds, State.withRt_rt, tabulate_get]

/-- The MEMBER that takes LEAVE (R92, R123, R132, R154). -/
theorem leaveBus_departs (hm : s.sc.state = .member) :
    (leaveBus s).sc = s.sc.inState .departing ∧ (leaveBus s).gl = .stopped ∧ (leaveBus s).au = s.au ∧ (leaveBus s).tc = s.tc ∧
    (leaveBus s).lc = s.lc ∧ (leaveBus s).ri = s.ri ∧ (leaveBus s).hp = s.hp ∧ (leaveBus s).pm = leaveMember s.pm ∧
    (leaveBus s).rt = (leaveHolds (stopAllGuards s)).rt ∧
    (leaveBus s).oq.entries = (s.oq.entries.filter fun e => e.contending || !isRequest e.content) ++ [newEntry .depart] := by
  have hv : voting s.sc.state = true := by rw [hm]; rfl
  have hd : voting .departing = true := rfl
  have hp : present .departing = true := rfl
  simp [leaveBus, purgeRequests, placeEntry, enterState_sc, enterState_gl, enterState_au, enterState_tc, enterState_lc,
    enterState_pm, enterState_rt, enterState_oq, hv, hd, hp, cancelQueued]

/-- The joining station that takes LEAVE (R92, R154). -/
theorem abandonJoin_ready (s : State) :
    (abandonJoin s).sc = s.sc.inState .ready ∧ (abandonJoin s).au = .cleared ∧ (abandonJoin s).tc = .cleared ∧
    (abandonJoin s).ri = s.ri ∧ (abandonJoin s).hp = s.hp ∧
    (abandonJoin s).oq.entries = (s.oq.entries.filter (·.contending)).map fun e => { e with discard := true } := by
  have hr : voting .ready = false := rfl
  refine ⟨by simp [abandonJoin, enterState_sc], by simp [abandonJoin, enterState_au, hr],
    by simp [abandonJoin, enterState_tc, hr], by simp [abandonJoin], by simp [abandonJoin], ?_⟩
  rw [abandonJoin, enterState_oq]
  split
  · rw [purgeAll_twice]
    rfl
  · rfl

/-- Settles O7: by the three rows of R92. -/
theorem leaveTaken : Obligations.LeaveTaken := by
  intro s hport
  rw [exec_leave hport]
  have hsc : s.leaveReceived.sc = s.sc := rfl
  refine ⟨fun hm => ?_, fun hj => ?_, fun hm hj => ?_⟩
  · obtain ⟨tsc, tgl, tau, ttc, tlc, tri, thp, tpm, trt, toq⟩ := leaveBus_departs (s := s.leaveReceived) hm
    have hanswer : answerLeave s.leaveReceived = answer .ok (leaveBus s.leaveReceived) := by
      rw [answerLeave, hsc, if_pos hm]
    rw [hanswer]
    have hslot : ∀ i : Tier, (holdResult (answer .ok (leaveBus s.leaveReceived))).rt.slots[i] = _ := fun i =>
      (congrArg (fun x : RequestTracker => x.slots[i]) trt).trans (leaveHolds_slot i _)
    refine ⟨_, rfl, congrArg StationController.state tsc, (congrArg StationController.config tsc).trans rfl, fun n => ?_, tgl, tau, ttc, tlc,
      tri, toq, fun i => ?_, fun i r hr => ?_, tpm, holdResult_answered .ok thp⟩
    · have hstate : (holdResult (answer .ok (leaveBus s.leaveReceived))).sc.state = .departing :=
        congrArg StationController.state tsc
      simp [grantActive, hstate]
    · rw [hslot, Option.isSome_map]
      rfl
    · refine ⟨_, (hslot i).trans (congrArg _ hr), rfl, rfl, rfl⟩
  · have hm : s.sc.state ≠ .member := by rintro hm; rw [hm] at hj; cases hj
    obtain ⟨tsc, tau, ttc, tri, thp, toq⟩ := abandonJoin_ready s.leaveReceived
    have hanswer : answerLeave s.leaveReceived = answer .ok (abandonJoin s.leaveReceived) := by
      rw [answerLeave, hsc, if_neg hm, if_pos hj]
    rw [hanswer]
    exact ⟨_, rfl, congrArg StationController.state tsc, (congrArg StationController.config tsc).trans rfl,
      congrArg StationController.staleMark tsc, congrArg StationController.foundingTimer tsc,
      congrArg StationController.roundTimer tsc, tau, ttc, toq, tri, holdResult_answered .ok thp⟩
  · rw [answerLeave, hsc, if_neg hm, if_neg (by simp [hj])]
    rfl

end Sys2Proof.Machine
end

section
/-! PROOFS. A bus opportunity (R33, R58, R59, R147 to R149): the revalidation of a queue without an attempt under way, the eviction decision
that may replace a removed EVICT, and the selection with its frame. -/

namespace Sys2Proof.Machine

variable {s : State} {before after more : List Entry} {e : Entry} {due : Content → Bool}

/-! ### The revalidation -/

/-- The entry that replaces an EVICT no longer due: an EVICT of the lowest-numbered member over the limit, if no other stands in the queue
(R58, R59). -/
def State.replacement (s : State) : List Entry :=
  if staleEntry .evict s ∧ present s.sc.state ∧ hasEntry .evict (removeStale s) = false then
    (evictionTarget s).toList.map fun m => newEntry (.evict m)
  else []

theorem removeStale_entries (hquiet : ∀ e ∈ s.oq.entries, e.contending = false) :
    (removeStale s).oq.entries = s.oq.entries.filter fun e => entryDue s e.content := by
  simp only [removeStale, cancelQueued, State.withEntries_oq]
  exact List.filter_congr fun e he => by simp [hquiet e he]

/-- The eviction decision of a state that has the silence timers and the queue of the revalidated one. -/
theorem decideEviction_entries {t u : State} (hsc : t.sc = u.sc) (hsilence : t.pm.silence = u.pm.silence) :
    (decideEviction t).oq.entries = t.oq.entries ++
      if present u.sc.state ∧ hasEntry .evict t = false then (evictionTarget u).toList.map fun m => newEntry (.evict m)
      else [] := by
  have hover : overAbsence t = overAbsence u := funext fun m => by
    unfold overAbsence beaconPeriod
    rw [hsc, hsilence]
  have htarget : evictionTarget t = evictionTarget u := by rw [evictionTarget, hover]; rfl
  unfold decideEviction
  rw [htarget, hsc]
  cases present u.sc.state <;> cases hasEntry .evict t <;> cases evictionTarget u <;> simp [placeEntry]

theorem revalidate_entries (hquiet : ∀ e ∈ s.oq.entries, e.contending = false) :
    (revalidate s).oq.entries = s.oq.entries.filter (fun e => entryDue s e.content) ++ s.replacement := by
  rw [← removeStale_entries hquiet]
  unfold revalidate State.replacement
  extract_lets t pm u
  have hu : u.oq = t.oq ∧ u.sc = s.sc ∧ u.pm.silence = s.pm.silence := by
    simp only [u, pm, t]
    split <;> simp
  obtain ⟨huoq, husc, husilence⟩ := hu
  have hentry : hasEntry .evict u = hasEntry .evict t := by simp only [hasEntry, huoq]
  cases staleEntry .evict s with
  | true =>
    rw [if_pos rfl, decideEviction_entries husc husilence, hentry, huoq]
    simp [t]
  | false => simp [huoq, t]

/-! ### What is due -/

/-- The entries due, as R148 gives them, are those that the revalidation keeps. -/
theorem entryDue_of_rules
    (hevict : ∀ m : Station, due (.evict m) = true ↔
      s.au.replica.roster[m] = true ∧ ∃ a, s.pm.silence[m] = some a ∧ 5 * beaconPeriod s ≤ a)
    (hpage : due .page = true ↔ (s.sc.state = .member ∨ s.sc.state = .departing) ∧ s.au.replica.transfer.running = true ∧
      s.au.replica.transfer.feeder = s.station)
    (hbeacon : due .beacon = true ↔ s.sc.state = .member ∨ s.sc.state = .departing)
    (hfound : due .found = true ↔ s.sc.state = .founding)
    (hrest : ∀ c, (∀ m, c ≠ .evict m) → c ≠ .page → c ≠ .beacon → c ≠ .found → due c = true) (c : Content) :
    due c = entryDue s c := by
  have hpresent : present s.sc.state = true ↔ s.sc.state = .member ∨ s.sc.state = .departing := by
    cases s.sc.state <;> simp [present]
  rw [Bool.eq_iff_iff]
  cases c with
  | evict m => rw [hevict, ← overAbsence_iff]; simp [entryDue]
  | page => rw [hpage, ← hpresent]; simp [entryDue, feederDuty, and_assoc]
  | beacon => rw [hbeacon, ← hpresent]; rfl
  | found => rw [hfound]; simp [entryDue]
  | _ => simp [hrest, entryDue]

theorem staleEntry_evict (hquiet : ∀ e ∈ s.oq.entries, e.contending = false) :
    staleEntry .evict s = true ↔ ∃ e ∈ s.oq.entries, ownerOf e.content = .evict ∧ entryDue s e.content = false := by
  simp only [staleEntry, List.any_eq_true, Bool.and_eq_true, Bool.not_eq_true', beq_iff_eq]
  exact exists_congr fun e => and_congr_right fun he => by simp [hquiet e he]

theorem hasEntry_removeStale (hquiet : ∀ e ∈ s.oq.entries, e.contending = false) :
    hasEntry .evict (removeStale s) = true ↔ ∃ e ∈ s.oq.entries, ownerOf e.content = .evict ∧ entryDue s e.content = true := by
  rw [hasEntry_true, removeStale_entries hquiet]
  simp only [List.mem_filter]
  exact exists_congr fun e => by tauto

/-- Where every EVICT is due, one stays, or none can be decided, nothing is placed (R58, R59). -/
theorem replacement_nil (hquiet : ∀ e ∈ s.oq.entries, e.contending = false)
    (h : (∀ e ∈ s.oq.entries, ownerOf e.content = .evict → entryDue s e.content = true) ∨ present s.sc.state = false ∨
      (∃ e ∈ s.oq.entries, ownerOf e.content = .evict ∧ entryDue s e.content = true) ∨
      ∀ (m : Station) a, s.pm.silence[m] = some a → a < 5 * beaconPeriod s) : s.replacement = [] := by
  rcases h with h | h | h | h
  · refine if_neg fun ⟨hstale, _⟩ => ?_
    obtain ⟨e, he, ho, hno⟩ := (staleEntry_evict hquiet).mp hstale
    rw [h e he ho] at hno
    cases hno
  · exact if_neg fun ⟨_, hp, _⟩ => by rw [h] at hp; cases hp
  · exact if_neg fun ⟨_, _, hno⟩ => by rw [(hasEntry_removeStale hquiet).mpr h] at hno; cases hno
  · have hnone : evictionTarget s = none := evictionTarget_none.mpr fun m => (overAbsence_false m).mpr (h m)
    simp [State.replacement, hnone]

/-- Where the EVICT is removed, one of the first member over the limit is placed (R58, R59). -/
theorem replacement_some {m : Station} {a : Nat} (hquiet : ∀ e ∈ s.oq.entries, e.contending = false)
    (hp : present s.sc.state = true) (hsome : ∃ e ∈ s.oq.entries, ownerOf e.content = .evict)
    (hstale : ∀ e ∈ s.oq.entries, ownerOf e.content = .evict → entryDue s e.content = false) (hm : s.pm.silence[m] = some a)
    (hlimit : 5 * beaconPeriod s ≤ a)
    (hleast : ∀ (k : Station) (b : Nat), k < m → s.pm.silence[k] = some b → b < 5 * beaconPeriod s) :
    s.replacement = [newEntry (.evict m)] := by
  have htarget : evictionTarget s = some m :=
    (evictionTarget_some m).mpr ⟨(overAbsence_iff m).mpr ⟨a, hm, hlimit⟩, fun k hk => (overAbsence_false k).mpr fun b =>
      hleast k b hk⟩
  have hremoved : staleEntry .evict s = true := by
    obtain ⟨e, he, ho⟩ := hsome
    exact (staleEntry_evict hquiet).mpr ⟨e, he, ho, hstale e he ho⟩
  have hnone : hasEntry .evict (removeStale s) = false := by
    rw [← Bool.not_eq_true, hasEntry_removeStale hquiet]
    rintro ⟨e, he, ho, hdue⟩
    rw [hstale e he ho] at hdue
    cases hdue
  rw [State.replacement, if_pos ⟨hremoved, hp, hnone⟩, htarget]
  rfl

/-! ### The selection -/

/-- The oldest entry of the lowest class is the first preferred one (R149). -/
theorem find_preferred (hquiet : ∀ x ∈ before ++ e :: after, x.contending = false) (hbefore : ∀ x ∈ before, e.cls < x.cls)
    (hafter : ∀ x ∈ after, e.cls ≤ x.cls) :
    preferred (before ++ e :: after) e = true ∧ ∀ x ∈ before, preferred (before ++ e :: after) x = false := by
  refine ⟨?_, fun x hx => ?_⟩
  · simp only [preferred, hquiet e (by simp), Bool.not_false, Bool.true_and, List.all_eq_true, Bool.or_eq_true, decide_eq_true_eq,
      List.mem_append, List.mem_cons]
    rintro x (hx | rfl | hx)
    · exact .inr (hbefore x hx).le
    · exact .inr le_rfl
    · exact .inr (hafter x hx)
  · have hnot : ¬ x.cls ≤ e.cls := not_le.mpr (hbefore x hx)
    have hfails : ((before ++ e :: after).all fun y => y.contending || decide (x.cls ≤ y.cls)) = false :=
      List.all_eq_false.mpr ⟨e, by simp, by simp [hquiet e (by simp), hnot]⟩
    rw [preferred, hfails, Bool.and_false]

theorem contendFirst_append {p : Entry → Bool} (hp : p e = true) (hbefore : ∀ x ∈ before, p x = false) :
    contendFirst p (before ++ e :: after) = before ++ { e with contending := true } :: after := by
  induction before with
  | nil => simp [contendFirst, hp]
  | cons x before ih =>
    obtain ⟨hx, hrest⟩ := List.forall_mem_cons.mp hbefore
    rw [List.cons_append, contendFirst, if_neg (by simp [hx]), ih hrest]
    rfl

/-- The selection of a queue without an attempt under way (R149). -/
theorem selectEntry_selects (hq : s.oq.entries = before ++ e :: after) (hquiet : ∀ x ∈ s.oq.entries, x.contending = false)
    (hbefore : ∀ x ∈ before, e.cls < x.cls) (hafter : ∀ x ∈ after, e.cls ≤ x.cls) :
    selectEntry s = (s.withEntries (before ++ { e with contending := true } :: after)).withLc
      { s.lc with sending := some (composeFrame e s) } := by
  obtain ⟨hpref, hnot⟩ := find_preferred (hq ▸ hquiet) hbefore hafter
  have hfind : s.oq.entries.find? (preferred s.oq.entries) = some e := by
    rw [hq, List.find?_append, List.find?_eq_none.mpr fun x hx => by simp [hnot x hx], List.find?_cons, hpref]
    rfl
  rw [selectEntry, hfind, hq]
  simp only [contendFirst_append hpref hnot]

theorem selectEntry_empty (hq : s.oq.entries = []) : selectEntry s = s := by
  rw [selectEntry, hq]
  rfl

/-- The line is free for an entry of this station (R147). -/
theorem opportune_idle (hin : s.inReset = false) (hline : s.lc.state = .idle) (hquiet : ∀ e ∈ s.oq.entries, e.contending = false)
    (hsome : s.oq.entries ≠ []) : opportune s = true := by
  have hnone : contendingEntry s = none := contendingEntry_none.mpr (State.attempt_nil.mpr hquiet)
  obtain ⟨e, he⟩ := List.exists_mem_of_ne_nil _ hsome
  have hqueued : s.oq.entries.any (fun e => !e.contending) = true := List.any_eq_true.mpr ⟨e, he, by simp [hquiet e he]⟩
  simp [opportune, hin, hline, hnone, hqueued]

/-! ### The frame -/

/-- The flags of a frame carry the reason of a YIELD and are 0 for every other kind (R202). -/
theorem flagsOf_other {c : Content} (h : kindOf c ≠ .yield) : flagsOf c = 0 := by
  cases c with
  | yield l g why => exact absurd rfl h
  | _ => rfl

/-- Settles O17: the queue after revalidation is the due entries and the replacement, and the first of the lowest class is sent. -/
theorem busOpportunitySelects : Obligations.BusOpportunitySelects := by
  intro s more due hin hline hquiet hsome hevict hpage hbeacon hfound hrest hmore
  obtain rfl : due = entryDue s := funext (entryDue_of_rules hevict hpage hbeacon hfound hrest)
  have hreplaced : more = s.replacement := by
    rcases hmore with ⟨hno, rfl⟩ | ⟨hp, hany, hstale, m, a, hm, hlimit, hleast, rfl⟩
    · exact (replacement_nil hquiet hno).symm
    · exact (replacement_some hquiet hp hany hstale hm hlimit hleast).symm
  subst hreplaced
  have hexec : exec .busOpportunity s = .next (selectEntry (revalidate s)) := by
    simp only [exec, execBusOpportunity, opportune_idle hin hline hquiet hsome, if_true]
  have hqueue := revalidate_entries hquiet
  have hattempt : ∀ x ∈ (revalidate s).oq.entries, x.contending = false :=
    State.attempt_nil.mp ((revalidate_attempt s).trans (State.attempt_nil.mpr hquiet))
  obtain ⟨-, ustation, -, ulc, uau, usc, utc, urt, ugl, uri, uhp, -, -⟩ := revalidate_frame s
  generalize revalidate s = u at *
  refine ⟨_, hexec, ?_, by simp [uau], by simp [usc], by simp [urt], by simp [uhp], by simp [ugl], by simp [utc], by simp [uri],
    fun hnone hno => ?_, fun before e after hsplit hbefore hafter => ?_⟩
  · unfold selectEntry
    split <;> simp [ulc, hline]
  · have hempty : u.oq.entries = [] := by
      rw [hqueue, hno, List.append_nil, List.filter_eq_nil_iff]
      exact fun x hx => by simp [hnone x hx]
    rw [selectEntry_empty hempty]
    exact ⟨ulc, hempty⟩
  · rw [selectEntry_selects (hqueue.trans hsplit) hattempt hbefore hafter]
    refine ⟨rfl, composeFrame e u, by rw [← ulc]; rfl, rfl, ustation, rfl, by rw [← uau]; rfl, flagsOf_other, fun l m hc => ?_,
      fun l g why hc => ?_, fun l hc => ?_, fun m hc => ?_, fun hc => ?_, fun c hconfig hc => ?_, fun hc => ?_⟩
    · cases m <;> simp [composeFrame, payloadOf, hc, modeByte]
    · cases why <;> simp [composeFrame, payloadOf, hc, flagsOf, reasonFlags]
    · simp [composeFrame, payloadOf, hc]
    · simp [composeFrame, payloadOf, hc]
    · simp [composeFrame, payloadOf, hc]
    · rcases hc with hc | hc | hc | hc <;> simp [composeFrame, payloadOf, hc, profilePayload, usc, hconfig, profileBytes]
    · simp [composeFrame, payloadOf, hc, uau]

end Sys2Proof.Machine
end

section
/-! PROOFS. An EVICT that names this station (R62, R69, R71, R94, R95, R97): the fence follows the smaller roster, and the drop follows the
fence. -/

namespace Sys2Proof.Machine

variable {s : State} {rd : Reading} {f : Frame} {why : LeftCause} {outcomes : List LockOutcome} {events : List TransferEvent}

/-! ### After the drop -/

/-- No EVICT is left QUEUED where every entry is CONTENDING. -/
theorem State.offBus.revalidateEvict (h : s.offBus) : revalidateEvict s = s := by
  obtain ⟨-, -, -, -, -, hoq⟩ := h
  have hstale : staleEntry .evict s = false := List.any_eq_false.mpr fun e he => by simp [(hoq e he).1]
  rw [Machine.revalidateEvict, hstale, if_neg (by decide)]

/-- The Station Controller of a station that has left the voting states takes no note of another station's report (R38). -/
theorem stationReport_dropped (hv : voting s.sc.state = false) :
    stationReport (removalReport false f s.station why outcomes events) s = s := by
  have hround : roundBroken (removalReport false f s.station why outcomes events) s = s := by
    unfold roundBroken
    split
    next hs => rw [hs] at hv; cases hv
    next hs => rw [hs] at hv; cases hv
    next => rfl
  have hdone : collectionDone s = s := collectionDone_same fun hs => by rw [hs] at hv; cases hv
  simp only [stationReport, ownDepart, ownEnrol, removalReport, plainReport] at hround ⊢
  simp [hround, hdone]

/-! ### The presence state of a station that is removed itself -/

/-- A fence set that stays as it is gives no notice (R62). -/
theorem fenceReport_same (a : Bool × Bool) (q : BusSeq) : fenceReport a a q = [] := by
  obtain ⟨c, d⟩ := a
  cases c <;> cases d <;> simp [fenceReport]

/-- No PEER_LEFT is placed and no silence timer moves; QUORUM alone may enter or leave the fence set (R61, R70). -/
theorem presenceReport_self (s : State) :
    let t := presenceReport (removalReport false f s.station why outcomes events) s
    t.sc = s.sc ∧ t.au = s.au ∧ t.rt = s.rt ∧
    t.hp = s.hp.noticed (if s.sc.state = .member then
      fenceReport (fenceSet s) (s.pm.contact, decide (countOf s.au.replica.roster < quorumOf s)) s.au.replica.busSeq else []) := by
  intro t
  generalize hv : evaluateQuorum (memberHeard f.sender s) = v
  have hheard : fenceSet (memberHeard f.sender s) = fenceSet s := by
    rw [fenceSet, memberHeard_pm]
    rfl
  have ht : t = fenceChanged (fenceSet s) (fenceSet v) v := by
    simp [t, presenceReport, senderReport, addedReport, removedReport, removalReport, plainReport, memberRemoved, hheard,
      fenceChanged_same, hv]
  refine ⟨by simp [ht, ← hv], by simp [ht, ← hv], by simp [ht, ← hv], ?_⟩
  have hvhp : v.hp = s.hp := by simp [← hv]
  have hvau : v.au = s.au := by simp [← hv]
  rw [ht, fenceChanged_hp, hvhp, hvau]
  split
  next hm =>
    obtain ⟨hquorum, -, -, hcontact, -, -⟩ := evaluateQuorum_member (s := memberHeard f.sender s) (by simpa using hm)
    have hq : quorumOf (memberHeard f.sender s) = quorumOf s := by simp [quorumOf]
    have hset : fenceSet v = (s.pm.contact, decide (countOf s.au.replica.roster < quorumOf s)) := by
      rw [fenceSet, ← hv, hquorum, hcontact, hq, memberHeard_pm]
      simp [PresenceMonitor.heard]
    rw [hset]
  next hm =>
    have hset : fenceSet v = fenceSet s := by
      rw [← hv, evaluateQuorum_other (by simpa using hm), hheard]
    rw [hset, fenceReport_same]

/-! ### The report of an EVICT of this station -/

/-- With no outcome for this station, the drop with OUSTED is the last that its EVICT does (R69, R71). -/
theorem handOn_ousted (hp : present s.sc.state = true) (hnone : ∀ o ∈ outcomes, o.subject ≠ s.station) :
    handOn (removalReport false f s.station .evicted outcomes events) s
      = keepFeeding (drop .ouster (presenceReport (removalReport false f s.station .evicted outcomes events) s)) ∧
    (drop .ouster (presenceReport (removalReport false f s.station .evicted outcomes events) s)).offBus := by
  generalize hrep : removalReport false f s.station .evicted outcomes events = rep
  have hfields : rep.own = false ∧ rep.disposition = .applied ∧ rep.outcomes = outcomes ∧
      rep.removed = some (s.station, .evicted) := by
    rw [← hrep]; exact ⟨rfl, rfl, rfl, rfl⟩
  obtain ⟨hown, happlied, hout, hremoved⟩ := hfields
  have hholds : departHolds rep (takeOutcomes rep.outcomes s) = s := by
    rw [hout, takeOutcomes_none s hnone, departHolds, if_neg (by simp [hown])]
  generalize hu : presenceReport rep s = u
  have husc : u.sc = s.sc := by rw [← hu]; simp
  obtain ⟨hoff, -, hsc, -⟩ := drop_dropped u .ouster (by rw [husc]; exact hp)
  have hidle : present (drop .ouster u).sc.state = false ∧ voting (drop .ouster u).sc.state = false := by
    rw [hsc]
    exact ⟨(dropState_idle u .ouster).1, (dropState_idle u .ouster).2.1⟩
  have hreact : presenceReactions rep s = drop .ouster u := by
    have houst : ousts rep s = true := by simp [ousts, hremoved, hp]
    simp only [presenceReactions, hp, if_true, hu, houst, hown, Bool.false_eq_true, false_and, if_false, hoff.revalidateEvict]
  have hstation : stationReport rep (drop .ouster u) = drop .ouster u := by
    have hplace : (drop .ouster u).station = s.station := by simp [← hu]
    rw [← hrep, ← hplace]
    exact stationReport_dropped hidle.2
  have hnot : voting (keepFeeding (drop .ouster u)).sc.state = false := by
    rw [(keepFeeding_frame _).2.2.2.2.2.2.1]
    exact hidle.2
  refine ⟨?_, hoff⟩
  simp only [handOn, happlied, if_true, reactApplied, hholds, hreact, hstation, hnot, Bool.false_eq_true, if_false]

/-- An EVICT of a member, applied at a receiver (R22, R43). -/
theorem heardEvict_applied {gone : Station} (h : s.receives rd f) (hk : f.kind = .evict) (hstep : s.inStep f)
    (htarget : targetField f.payload = gone) (hmember : s.au.replica.roster[gone] = true) :
    exec (.evictFrame rd) s = .next (handOn
      (removalReport false f gone .evicted (s.removalOutcomes gone) (s.au.replica.removalEvents gone))
      (s.heardLeft rd gone)) := by
  subst htarget
  have happly : ∀ same, applyKind s.tc.uncollected same false f s.au.replica
      = ((removeMember s.tc.uncollected (targetField f.payload) s.au.replica).1,
         removalReport false f (targetField f.payload) .evicted (s.removalOutcomes (targetField f.payload))
           (s.au.replica.removalEvents (targetField f.payload))) := fun same => by
    simp only [applyKind, hk, hmember, if_true]
    rfl
  have hexec := acceptFrame_applied s h (dispositionOf_inStep s (by simp [hk]) hstep) fun _ => by
    rw [happly, removal_takesNone]
  rw [happly, hk] at hexec
  exact hexec

theorem dropState_ouster (hp : present s.sc.state = true) :
    dropState .ouster s = if autoRejoin s = true ∧ s.sc.state = .member then .listen else .ready := by
  have hstate : s.sc.state ≠ .departing ↔ s.sc.state = .member := by
    revert hp
    cases s.sc.state <;> simp [present]
  simp [dropState, rejoinsAfter, hstate]

/-- Settles O30: no outcome of the removal is this station's own, so the fence notices, the drop's REVOKED and OUSTED are all that is told. -/
theorem evictOusts : Obligations.EvictOusts := by
  intro s rd f h hk hstep htable htarget hmember hp
  have hexec := heardEvict_applied h hk hstep htarget hmember
  have hnone : ∀ o ∈ s.removalOutcomes s.station, o.subject ≠ (s.heardLeft rd s.station).station := removalOutcomes_own htable
  obtain ⟨hhanded, hdropped⟩ := handOn_ousted (s := s.heardLeft rd s.station) (f := f)
    (events := s.au.replica.removalEvents s.station) hp hnone
  obtain ⟨usc, uau, urt, uhp⟩ := presenceReport_self (f := f) (why := .evicted) (outcomes := s.removalOutcomes s.station)
    (events := s.au.replica.removalEvents s.station) (s.heardLeft rd s.station)
  have hstation : (s.heardLeft rd s.station).station = s.station := rfl
  rw [hstation] at hhanded hdropped usc uau urt uhp
  generalize presenceReport (removalReport false f s.station .evicted (s.removalOutcomes s.station)
    (s.au.replica.removalEvents s.station)) (s.heardLeft rd s.station) = u at *
  have hup : present u.sc.state = true := by rw [usc]; exact hp
  obtain ⟨-, dhp, dsc, -⟩ := drop_dropped u .ouster hup
  rw [hhanded] at hexec
  have hfed := hdropped.fed (by rw [dsc]; exact (dropState_idle u .ouster).1)
  have hseq : u.au.replica.busSeq = s.au.replica.busSeq + 1 := by rw [uau]; rfl
  have hsc : u.sc = s.sc := usc
  refine ⟨_, hexec, hfed, ?_, ?_, ?_, offBus_inactive hfed⟩
  · have hkept : (keepFeeding (drop .ouster u)).hp = (drop .ouster u).hp := by simp
    rw [hkept, dhp, uhp, hseq, urt, HostPort.noticed_append, ← List.append_assoc]
    rfl
  · have hkept : (keepFeeding (drop .ouster u)).sc = (drop .ouster u).sc := by simp
    have hrejoin : autoRejoin u = autoRejoin s := by simp only [autoRejoin, hsc]
    rw [hkept, dsc, ← hrejoin, ← hsc]
    exact dropState_ouster hup
  · have hkept : (keepFeeding (drop .ouster u)).sc = (drop .ouster u).sc := by simp
    rw [hkept, dsc, hsc]
    rfl

end Sys2Proof.Machine
end

section
/-! PROOFS. One outcome on the record of its lock (R108, R113 to R117): the other slots, the lines, the request inputs and the queue, which it
leaves alone or changes for this lock only. -/

namespace Sys2Proof.Machine

variable {s t u : State} {l : Lock} {r : HoldRecord} {g : Generation} {o : LockOutcome}

/-! ### What an outcome can do -/

/-- All that an outcome of some name can do to the record of its lock (R113 to R118). -/
inductive State.Takes (s : State) (r : HoldRecord) (name : OutcomeName) : State → Prop
  | kept : s.Takes r name s
  | held (k : NoticeKind) (mark : Bool) (g : Generation) (h : name = .granted ∨ name = .alreadyHeld) :
      s.Takes r name (enterHeld k mark g r s)
  | waiting (g : Generation) : s.Takes r name (enterWaiting g r s)
  | withdrawing : s.Takes r name (enterWithdrawing r s)
  | emptied (n : Option (NoticeKind × Option Generation × Qualifier)) : s.Takes r name (emptySlot n r s)
  | ignored (n : Option (NoticeKind × Option Generation × Qualifier)) :
      s.Takes r name (emptySlot n r (ignoreOrigin r.origin s))
  | left (h : name = .notWaiting) : s.Takes r name (withdrawLeft r s)

theorem takeGrant_takes (g : Generation) (r : HoldRecord) (s : State) : s.Takes r .granted (takeGrant g r s) := by
  unfold takeGrant
  split
  case h_5 => exact .kept
  all_goals exact .held _ _ _ (.inl rfl)

theorem takeOutcome_takes (hr : recordFor s o.lock = some r) : s.Takes r o.name (takeOutcome o s) := by
  simp only [takeOutcome, hr]
  split
  case h_1 _ _ hname =>
    rw [hname]
    exact takeGrant_takes _ r s
  case h_2 | h_10 => exact .waiting _
  case h_3 | h_11 => exact .withdrawing
  case h_8 _ _ hname _ | h_9 _ _ hname _ => exact .held _ _ _ (.inr hname)
  case h_6 => exact .ignored _
  case h_14 _ _ hname _ | h_15 _ _ hname _ =>
    split
    · exact .left hname
    · exact .kept
  case h_16 => split <;> exact .emptied _
  case h_18 => exact .kept
  all_goals exact .emptied _

/-! ### The pin of a record -/

theorem bound_congr (h : u.sc = s.sc) (r : HoldRecord) : u.bound r ↔ s.bound r := by
  simp only [State.bound, requestBinding, h]

/-- All that the re-evaluation of a record's origin can do: nothing, a new claim for an empty slot, the YIELD of a HELD record, or the
withdraw of a pending one (R108). -/
theorem evaluateOrigin_cases (hb : s.sc.state = .member → s.bound r) :
    evaluateOrigin r.origin s = s ∨
    (recordFor s r.lock = none ∧ ∃ p, evaluateOrigin r.origin s = pinClaim p r.lock s) ∨
    (∃ x, recordFor s r.lock = some x ∧ x.state = .held ∧ evaluateOrigin r.origin s = yieldRecord .released x s) ∨
    (∃ x, recordFor s r.lock = some x ∧ x.state ≠ .held ∧ evaluateOrigin r.origin s = withdrawRecord x s) := by
  by_cases hm : s.sc.state = .member
  · rcases hb hm with ho | ⟨p, ho, hp⟩
    · exact .inl (by rw [ho]; rfl)
    · rw [ho]
      simp only [evaluateOrigin, evaluatePin, hp, hm, if_true]
      cases hr : recordFor s r.lock with
      | none =>
        dsimp only
        split
        · exact .inr (.inl ⟨rfl, p, rfl⟩)
        · exact .inl rfl
      | some x =>
        dsimp only
        split
        · exact .inl rfl
        · split
          next hheld => exact .inr (.inr (.inl ⟨x, rfl, hheld, rfl⟩))
          next hheld => exact .inr (.inr (.inr ⟨x, rfl, hheld, rfl⟩))
  · exact .inl (evaluateOrigin_other _ hm)

/-- A record of host origin, and any record outside MEMBER, has no pin to follow (R108). -/
theorem evaluateOrigin_still (h : r.origin = .host ∨ s.sc.state ≠ .member) : evaluateOrigin r.origin s = s := by
  rcases h with h | h
  · rw [h]
    rfl
  · exact evaluateOrigin_other _ h

/-! ### The other slots -/

/-- Every slot but that of a lock's tier is as it was. -/
def State.keepsOthers (s u : State) (l : Lock) : Prop := ∀ i : Tier, i ≠ tierOf l → u.rt.slots[i] = s.rt.slots[i]

theorem State.keepsOthers_of_rt (h : u.rt = s.rt) (l : Lock) : s.keepsOthers u l := fun i _ => by rw [h]

theorem State.keepsOthers_of_slot {x : Option HoldRecord} (h : u.rt.slots = putAt s.rt.slots (tierOf l) x) : s.keepsOthers u l :=
  fun i hi => by rw [h, putAt_get_other _ _ hi.symm]

theorem State.keepsOthers.trans (h1 : s.keepsOthers t l) (h2 : t.keepsOthers u l) : s.keepsOthers u l :=
  fun i hi => (h2 i hi).trans (h1 i hi)

theorem setSlot_slots (i : Tier) (x : Option HoldRecord) (s : State) : (setSlot i x s).rt.slots = putAt s.rt.slots i x := rfl

theorem setSlot_keepsOthers (x : Option HoldRecord) (h : u.rt = s.rt) : s.keepsOthers (setSlot (tierOf l) x u) l :=
  State.keepsOthers_of_slot (by rw [setSlot_slots, h])

theorem pinClaim_keepsOthers (p : Pin) (l : Lock) (s : State) : s.keepsOthers (pinClaim p l s) l := by
  unfold pinClaim
  split
  · exact (setSlot_keepsOthers _ rfl).trans (State.keepsOthers_of_rt rfl l)
  · exact State.keepsOthers_of_rt (by simp) l

theorem yieldRecord_keepsOthers (why : Reason) (r : HoldRecord) (s : State) : s.keepsOthers (yieldRecord why r s) r.lock := by
  unfold yieldRecord
  dsimp only
  split
  · exact setSlot_keepsOthers _ (by simp)
  · exact fun i hi => by simp [setSlot_slots, putAt_get_other _ _ (Ne.symm hi)]

theorem withdrawRecord_keepsOthers (r : HoldRecord) (s : State) : s.keepsOthers (withdrawRecord r s) r.lock := by
  unfold withdrawRecord
  split
  · split
    · exact setSlot_keepsOthers _ rfl
    · exact fun i hi => by simp [setSlot_slots, putAt_get_other _ _ (Ne.symm hi)]
  · exact fun i hi => by simp [setSlot_slots, putAt_get_other _ _ (Ne.symm hi)]
  · exact State.keepsOthers_of_rt rfl _

theorem evaluateOrigin_keepsOthers (hb : s.sc.state = .member → s.bound r) :
    s.keepsOthers (evaluateOrigin r.origin s) r.lock := by
  rcases evaluateOrigin_cases hb with h | ⟨-, p, h⟩ | ⟨x, hx, -, h⟩ | ⟨x, hx, -, h⟩ <;> rw [h]
  · exact State.keepsOthers_of_rt rfl _
  · exact pinClaim_keepsOthers p _ s
  · rw [← (recordFor_some.mp hx).2]
    exact yieldRecord_keepsOthers _ x s
  · rw [← (recordFor_some.mp hx).2]
    exact withdrawRecord_keepsOthers x s

/-- A change of the record's slot, followed by its pin. -/
theorem evaluated_keepsOthers (hb : s.sc.state = .member → s.bound r) (h : s.keepsOthers u r.lock) (hsc : u.sc = s.sc) :
    s.keepsOthers (evaluateOrigin r.origin u) r.lock :=
  h.trans (evaluateOrigin_keepsOthers fun hm => (bound_congr hsc r).mpr (hb (hsc ▸ hm)))

theorem enterHeld_keepsOthers (hb : s.sc.state = .member → s.bound r) (k : NoticeKind) (mark : Bool) (g : Generation) :
    s.keepsOthers (enterHeld k mark g r s) r.lock :=
  evaluated_keepsOthers hb (fun i hi => by simp [setSlot_slots, putAt_get_other _ _ (Ne.symm hi)]) (by simp)

theorem emptySlot_keepsOthers (hb : s.sc.state = .member → s.bound r) (n : Option (NoticeKind × Option Generation × Qualifier))
    (hrt : u.rt = s.rt) (hsc : u.sc = s.sc) : s.keepsOthers (emptySlot n r u) r.lock := by
  have hempty : s.keepsOthers (setSlot (tierOf r.lock) none (cancelRequest (tierOf r.lock) u)) r.lock :=
    setSlot_keepsOthers _ (by simp [hrt])
  cases n with
  | none => exact evaluated_keepsOthers hb hempty (by simp [hsc])
  | some x => exact evaluated_keepsOthers hb (hempty.trans (State.keepsOthers_of_rt (by simp) _)) (by simp [hsc])

theorem enterWaiting_keepsOthers (hb : s.sc.state = .member → s.bound r) (g : Generation) :
    s.keepsOthers (enterWaiting g r s) r.lock :=
  evaluated_keepsOthers hb (fun i hi => by simp [setSlot_slots, putAt_get_other _ _ (Ne.symm hi)]) (by simp)

theorem enterWithdrawing_keepsOthers (r : HoldRecord) (s : State) : s.keepsOthers (enterWithdrawing r s) r.lock := by
  unfold enterWithdrawing
  split
  · exact setSlot_keepsOthers _ rfl
  · exact (setSlot_keepsOthers _ rfl).trans (State.keepsOthers_of_rt rfl _)

theorem withdrawLeft_keepsOthers (r : HoldRecord) (s : State) : s.keepsOthers (withdrawLeft r s) r.lock := by
  unfold withdrawLeft
  dsimp only
  split
  · exact (setSlot_keepsOthers _ rfl).trans (State.keepsOthers_of_rt rfl _)
  · exact setSlot_keepsOthers _ rfl

theorem takeOutcome_keepsOthers (hr : recordFor s o.lock = some r) (hb : s.sc.state = .member → s.bound r) :
    s.keepsOthers (takeOutcome o s) o.lock := by
  rw [← (recordFor_some.mp hr).2]
  generalize takeOutcome o s = u, takeOutcome_takes hr = htakes
  cases htakes with
  | kept => exact State.keepsOthers_of_rt rfl _
  | held k mark g => exact enterHeld_keepsOthers hb k mark g
  | waiting g => exact enterWaiting_keepsOthers hb g
  | withdrawing => exact enterWithdrawing_keepsOthers r s
  | emptied n => exact emptySlot_keepsOthers hb n rfl rfl
  | ignored n => exact emptySlot_keepsOthers hb n (by simp) (by simp)
  | left => exact withdrawLeft_keepsOthers r s

/-! ### The lines -/

/-- Without a HELD record there is none to yield, and no line moves (R132). -/
theorem evaluateOrigin_lines (hb : s.sc.state = .member → s.bound r)
    (h : ∀ x, recordFor s r.lock = some x → x.state ≠ .held) : (evaluateOrigin r.origin s).gl = s.gl := by
  rcases evaluateOrigin_cases hb with he | ⟨-, p, he⟩ | ⟨x, hx, hheld, -⟩ | ⟨x, -, -, he⟩
  · rw [he]
  · simp [he]
  · exact absurd hheld (h x hx)
  · simp [he]

/-- The record of a lock once its slot has been set. -/
theorem recordFor_slot {x : Option HoldRecord} (h : u.rt.slots = putAt s.rt.slots (tierOf l) x) {y : HoldRecord}
    (hy : recordFor u l = some y) : x = some y := by
  obtain ⟨hslot, -⟩ := recordFor_some.mp hy
  rwa [h, putAt_get_self] at hslot

theorem emptySlot_lines (hb : s.sc.state = .member → s.bound r) (n : Option (NoticeKind × Option Generation × Qualifier))
    (hsc : u.sc = s.sc) : (emptySlot n r u).gl = u.gl := by
  have hlines : ∀ v : State, v.sc = u.sc → v.rt.slots = putAt u.rt.slots (tierOf r.lock) none → v.gl = u.gl →
      (evaluateOrigin r.origin v).gl = u.gl := fun v hv hslots hgl =>
    (evaluateOrigin_lines (fun hm => (bound_congr (hv.trans hsc) r).mpr (hb (by rw [← hsc, ← hv]; exact hm)))
      fun x hx => by cases recordFor_slot hslots hx).trans hgl
  cases n with
  | none => exact hlines _ (by simp) (by simp [setSlot_slots]) (by simp)
  | some x => exact hlines _ (by simp) (by simp [setSlot_slots]) (by simp)

theorem enterWaiting_lines (hb : s.sc.state = .member → s.bound r) (g : Generation) : (enterWaiting g r s).gl = s.gl := by
  generalize hv : lockNotice .queued r.lock (some g) .none
    (setSlot (tierOf r.lock) (some { r with state := .waiting }) (cancelRequest (tierOf r.lock) s)) = v
  have hsc : v.sc = s.sc := by simp [← hv]
  have hgl : v.gl = s.gl := by simp [← hv]
  have hslots : v.rt.slots = putAt s.rt.slots (tierOf r.lock) (some { r with state := .waiting }) := by
    simp [← hv, setSlot_slots]
  have hwaits := evaluateOrigin_lines (fun hm => (bound_congr hsc r).mpr (hb (hsc ▸ hm))) fun x hx => by
    cases recordFor_slot hslots hx
    simp
  rw [enterWaiting, hv, hwaits, hgl]

/-- Of the outcomes only a grant and ALREADY_HELD move a line (R113, R130). -/
theorem takeOutcome_lines (hr : recordFor s o.lock = some r) (hb : s.sc.state = .member → s.bound r) (hgrant : o.name ≠ .granted)
    (hheld : o.name ≠ .alreadyHeld) : (takeOutcome o s).gl = s.gl := by
  generalize takeOutcome o s = u, takeOutcome_takes hr = htakes
  cases htakes with
  | kept => rfl
  | held k mark g hname => exact absurd hname (by simp [hgrant, hheld])
  | waiting g => exact enterWaiting_lines hb g
  | withdrawing => simp
  | emptied n => exact emptySlot_lines hb n rfl
  | ignored n => simp [emptySlot_lines hb]
  | left => simp

/-! ### The request inputs -/

/-- No outcome on a record of host origin reaches a request input (R108, R136). -/
theorem takeOutcome_inputs (hr : recordFor s o.lock = some r) (ho : r.origin = .host) : (takeOutcome o s).ri = s.ri := by
  have hempty : ∀ n, (emptySlot n r s).ri = s.ri := fun n => by cases n <;> simp [emptySlot, ho, evaluateOrigin]
  generalize takeOutcome o s = u, takeOutcome_takes hr = htakes
  cases htakes with
  | kept => rfl
  | held k mark g => simp [enterHeld, ho, evaluateOrigin]
  | waiting g => simp [enterWaiting, ho, evaluateOrigin]
  | withdrawing => simp
  | emptied n => exact hempty n
  | ignored n => simp [ho, ignoreOrigin, hempty]
  | left => simp

/-! ### The queue outside MEMBER -/

theorem cancelRequest_entries {e : Entry} {i : Tier} (h : e ∈ (cancelRequest i s).oq.entries) : e ∈ s.oq.entries := by
  simp only [cancelRequest, cancelQueued, State.withEntries_oq, List.mem_filter] at h
  exact h.1

theorem enterHeld_entries (hm : s.sc.state ≠ .member) (k : NoticeKind) (mark : Bool) (g : Generation) {e : Entry}
    (h : e ∈ (enterHeld k mark g r s).oq.entries) : e ∈ s.oq.entries :=
  cancelRequest_entries (i := tierOf r.lock) (by simpa [enterHeld, evaluateOrigin_other, hm] using h)

theorem enterWaiting_entries (hm : s.sc.state ≠ .member) (g : Generation) {e : Entry}
    (h : e ∈ (enterWaiting g r s).oq.entries) : e ∈ s.oq.entries :=
  cancelRequest_entries (i := tierOf r.lock) (by simpa [enterWaiting, evaluateOrigin_other, hm] using h)

theorem emptySlot_entries (hm : u.sc.state ≠ .member) (n : Option (NoticeKind × Option Generation × Qualifier)) {e : Entry}
    (h : e ∈ (emptySlot n r u).oq.entries) : e ∈ u.oq.entries :=
  cancelRequest_entries (i := tierOf r.lock) (by cases n <;> simpa [emptySlot, evaluateOrigin_other, hm] using h)

/-- In DEPARTING an outcome places no frame, unless a YIELD was deferred behind a WITHDRAW (R119, R123). -/
theorem takeOutcome_entries (hs : s.sc.state = .departing) (hr : recordFor s o.lock = some r)
    (hd : r.deferred = none ∨ o.name ≠ .notWaiting) {e : Entry} (h : e ∈ (takeOutcome o s).oq.entries) : e ∈ s.oq.entries := by
  have hm : s.sc.state ≠ .member := by simp [hs]
  revert h
  generalize takeOutcome o s = u, takeOutcome_takes hr = htakes
  cases htakes with
  | kept => exact id
  | held k mark g => exact enterHeld_entries hm k mark g
  | waiting g => exact enterWaiting_entries hm g
  | withdrawing => simp [enterWithdrawing, hs]
  | emptied n => exact emptySlot_entries hm n
  | ignored n =>
    intro h
    simpa using emptySlot_entries (u := ignoreOrigin r.origin s) (by simpa using hm) n h
  | left hname => simp [withdrawLeft, hd.resolve_right (absurd hname)]

end Sys2Proof.Machine
end

section
/-! PROOFS. The rows of the outcome tables on the record of a lock (R113 to R117, R119, R120), each with the slot, the request inputs and the
notice that it leaves. -/

namespace Sys2Proof.Machine

variable {s t u : State} {l : Lock} {r x : HoldRecord} {g : Generation} {o : LockOutcome}

/-- A record that stands in its slot, with its pin asserted or with none, is left alone (R108). -/
theorem evaluateOrigin_stable (hb : s.sc.state = .member → s.bound r) (hpin : s.pinFell r = false)
    (hx : recordFor s r.lock = some x) : evaluateOrigin r.origin s = s := by
  by_cases hm : s.sc.state = .member
  · rcases hb hm with ho | ⟨p, ho, hp⟩
    · exact evaluateOrigin_still (.inl ho)
    · have hstable : s.ri.inputs[p].stable = true := by simpa [State.pinFell, hm, ho] using hpin
      simp only [ho, evaluateOrigin, evaluatePin, hp, hm, if_true, hx, hstable]
  · exact evaluateOrigin_still (.inr hm)

/-! ### A claim granted or already held -/

/-- A claim with the record of a wait: a grant takes both alike (R113). -/
def HoldRecord.asWaiting (r : HoldRecord) : HoldRecord :=
  { r with state := if r.state = .claimCancel then .withdrawing else .waiting, withdrawAsked := false }

theorem HoldRecord.asWaiting_grantKind (h : r.state = .claiming ∨ r.state = .claimCancel) :
    r.asWaiting.grantKind = r.grantKind := by
  rcases h with h | h <;> simp [HoldRecord.asWaiting, HoldRecord.grantKind, h]

theorem takeGrant_asWaiting (h : r.state = .claiming ∨ r.state = .claimCancel) :
    takeGrant g r.asWaiting s = enterHeld r.grantKind false g r s := by
  rcases h with h | h <;> simp [takeGrant, HoldRecord.asWaiting, HoldRecord.grantKind, enterHeld, h]

theorem markStays_claim (h : r.state = .claiming ∨ r.state = .claimCancel) : s.markStays r = false := by
  rcases h with h | h <;> simp [State.markStays, h]

theorem markStays_asWaiting : s.markStays r.asWaiting = false := by
  simp [State.markStays, HoldRecord.asWaiting]

theorem grantTaken_asWaiting (h : r.state = .claiming ∨ r.state = .claimCancel) :
    s.grantTaken r.asWaiting g = s.grantTaken r g := by
  simp only [State.grantTaken, markStays_asWaiting, markStays_claim h]
  rfl

theorem fellEntries_asWaiting (h : r.state = .claiming ∨ r.state = .claimCancel) :
    s.fellEntries r.asWaiting g = s.fellEntries r g := by
  simp only [State.fellEntries, markStays_asWaiting, markStays_claim h]
  rfl

/-- What GRANTED or ALREADY_HELD does on the record of an own claim (R113, R114). -/
theorem enterHeld_taken (h : r.state = .claiming ∨ r.state = .claimCancel) (hb : s.sc.state = .member → s.bound r) :
    let u := enterHeld r.grantKind false g r s
    u.rt.slots = putAt s.rt.slots (tierOf r.lock) (some (s.grantTaken r g)) ∧ u.ri = s.ri ∧
    u.hp = s.hp.noticed
      [{ kind := r.grantKind, lock := some r.lock, station := none, generation := some g, qualifier := .none,
         busSeq := s.au.replica.busSeq }] ∧
    u.oq.entries
      = s.oq.entries.filter (fun e => e.contending || !(ownerOf e.content == .slot (tierOf r.lock))) ++ s.fellEntries r g ∧
    (s.pinFell r = false → ∀ n : GrantLine, u.gl.guards[n]
      = if s.sc.state = .member ∧ fenced s = false ∧ grantBinding s n = some r.lock then s.freshGuard else s.gl.guards[n]) := by
  have hwait : r.asWaiting.state = .waiting ∨ r.asWaiting.state = .withdrawing := by
    rcases h with h | h <;> simp [HoldRecord.asWaiting, h]
  have htaken := takeGrant_taken (r := r.asWaiting) g ⟨hwait, hb⟩
  rw [takeGrant_asWaiting h, HoldRecord.asWaiting_grantKind h, grantTaken_asWaiting h, fellEntries_asWaiting h] at htaken
  exact htaken

theorem takeOutcome_held (hr : recordFor s o.lock = some r) (hname : o.name = .granted ∨ o.name = .alreadyHeld)
    (h : r.state = .claiming ∨ r.state = .claimCancel) : takeOutcome o s = enterHeld r.grantKind false o.generation r s := by
  rcases hname with hname | hname <;> rcases h with h | h <;>
    simp [takeOutcome, hr, hname, h, takeGrant, HoldRecord.grantKind]

/-! ### A claim that waits -/

theorem takeOutcome_waits (hr : recordFor s o.lock = some r) (hname : o.name = .queued ∨ o.name = .alreadyWaiting)
    (h : r.state = .claiming) : takeOutcome o s = enterWaiting o.generation r s := by
  rcases hname with hname | hname <;> simp only [takeOutcome, hr, hname, h]

theorem takeOutcome_withdraws (hr : recordFor s o.lock = some r) (hname : o.name = .queued ∨ o.name = .alreadyWaiting)
    (h : r.state = .claimCancel) : takeOutcome o s = enterWithdrawing r s := by
  rcases hname with hname | hname <;> simp only [takeOutcome, hr, hname, h]

/-- QUEUED or ALREADY_WAITING on a claim whose pin is asserted (R114). -/
theorem enterWaiting_taken (hb : s.sc.state = .member → s.bound r) (hpin : s.pinFell r = false) :
    (enterWaiting g r s).rt.slots = putAt s.rt.slots (tierOf r.lock) (some { r with state := .waiting }) ∧
    (enterWaiting g r s).ri = s.ri ∧
    (enterWaiting g r s).hp = s.hp.noticed
      [{ kind := .queued, lock := some r.lock, station := none, generation := some g, qualifier := .none,
         busSeq := s.au.replica.busSeq }] := by
  generalize hv : lockNotice .queued r.lock (some g) .none
    (setSlot (tierOf r.lock) (some { r with state := .waiting }) (cancelRequest (tierOf r.lock) s)) = v
  have hsc : v.sc = s.sc := by simp [← hv]
  have hri : v.ri = s.ri := by simp [← hv]
  have hslots : v.rt.slots = putAt s.rt.slots (tierOf r.lock) (some { r with state := .waiting }) := by
    simp [← hv, setSlot_slots]
  have hrecord : recordFor v r.lock = some { r with state := .waiting } := by
    rw [recordFor_some, hslots]
    exact ⟨putAt_get_self _ _ _, rfl⟩
  have hstays : enterWaiting g r s = v := by
    rw [enterWaiting, hv]
    refine evaluateOrigin_stable (fun hm => (bound_congr hsc r).mpr (hb (hsc ▸ hm))) ?_ hrecord
    rw [← hpin, State.pinFell, State.pinFell, hsc, hri]
  rw [hstays]
  exact ⟨hslots, hri, by simp [← hv, lockNotice_hp]⟩

/-- QUEUED or ALREADY_WAITING on a claim that was being withdrawn (R114, R123). -/
theorem enterWithdrawing_taken :
    (enterWithdrawing r s).ri = s.ri ∧ (enterWithdrawing r s).hp = s.hp ∧
    (s.sc.state = .member → (enterWithdrawing r s).rt.slots = putAt s.rt.slots (tierOf r.lock) (some { r with state := .withdrawing }) ∧
      newEntry (.withdraw r.lock) ∈ (enterWithdrawing r s).oq.entries) ∧
    (s.sc.state = .departing → (enterWithdrawing r s).rt.slots
      = putAt s.rt.slots (tierOf r.lock) (some { r with state := .withdrawing, withdrawAsked := false })) := by
  refine ⟨by simp, by simp, fun hm => ?_, fun hd => ?_⟩
  · simp [enterWithdrawing, hm, setSlot_slots, placeEntry]
  · simp [enterWithdrawing, hd, setSlot_slots]

/-! ### A record that ends -/

/-- A slot emptied with no pin to look at, and a notice (R113 to R117). -/
theorem emptySlot_noticed (h : r.origin = .host ∨ s.sc.state ≠ .member) (k : NoticeKind) (n : Option Generation) (q : Qualifier) :
    (emptySlot (some (k, n, q)) r s).rt.slots = putAt s.rt.slots (tierOf r.lock) none ∧
    (emptySlot (some (k, n, q)) r s).ri = s.ri ∧
    (emptySlot (some (k, n, q)) r s).hp = s.hp.noticed
      [{ kind := k, lock := some r.lock, station := none, generation := n, qualifier := q, busSeq := s.au.replica.busSeq }] := by
  rw [emptySlot]
  rw [evaluateOrigin_still (by simpa using h)]
  simp [setSlot_slots, lockNotice_hp]

/-- A slot emptied with no pin to look at, and no notice (R116). -/
theorem emptySlot_silent (h : r.origin = .host ∨ s.sc.state ≠ .member) :
    (emptySlot none r s).rt.slots = putAt s.rt.slots (tierOf r.lock) none ∧ (emptySlot none r s).ri = s.ri ∧
    (emptySlot none r s).hp = s.hp := by
  rw [emptySlot]
  rw [evaluateOrigin_still (by simpa using h)]
  simp [setSlot_slots]

theorem takeOutcome_busy (hr : recordFor s o.lock = some r) (hname : o.name = .refusedBusy) (h : r.state = .claiming) :
    takeOutcome o s = emptySlot (some (.refusedBusy, some o.generation, .none)) r s := by
  simp only [takeOutcome, hr, hname, h]

theorem takeOutcome_full (hr : recordFor s o.lock = some r) (hname : o.name = .refusedFull) (h : r.state = .claiming) :
    takeOutcome o s = emptySlot (some (.refusedFull, some o.generation, .none)) r (ignoreOrigin r.origin s) := by
  simp only [takeOutcome, hr, hname, h]

theorem takeOutcome_cancelled (hr : recordFor s o.lock = some r) (hname : o.name = .refusedBusy ∨ o.name = .refusedFull)
    (h : r.state = .claimCancel) : takeOutcome o s = emptySlot (some (.withdrawn, none, .none)) r s := by
  rcases hname with hname | hname <;> simp only [takeOutcome, hr, hname, h]

theorem takeOutcome_withdrawn (hr : recordFor s o.lock = some r) (hname : o.name = .withdrawn ∨ o.name = .notWaiting)
    (h : r.state = .withdrawing) : takeOutcome o s = emptySlot (some (.withdrawn, none, .none)) r s := by
  rcases hname with hname | hname <;> simp only [takeOutcome, hr, hname, h]

theorem takeOutcome_left (hr : recordFor s o.lock = some r) (hname : o.name = .notWaiting)
    (h : r.state = .held ∨ r.state = .yielding) (hmark : r.withdrawAsked = true) : takeOutcome o s = withdrawLeft r s := by
  rcases h with h | h <;> simp only [takeOutcome, hr, hname, h, hmark, if_true]

theorem takeOutcome_yielded (hr : recordFor s o.lock = some r) (hname : o.name = .yielded) (h : r.state = .yielding) :
    (o.reason = some .released →
      takeOutcome o s = emptySlot (some (.yielded, some o.generation, .stale false)) r s) ∧
    (o.reason = some .expired → takeOutcome o s = emptySlot none r s) := by
  constructor <;> intro hwhy <;> simp only [takeOutcome, hr, hname, h, hwhy]

theorem takeOutcome_stale (hr : recordFor s o.lock = some r) (hname : o.name = .stale) (h : r.state = .yielding) :
    takeOutcome o s = emptySlot (some (.yielded, some o.generation, .stale true)) r s := by
  simp only [takeOutcome, hr, hname, h]

/-- The mark cleared as the WITHDRAW of a granted record leaves the queue (R116, R119). -/
theorem withdrawLeft_taken :
    (withdrawLeft r s).rt.slots = putAt s.rt.slots (tierOf r.lock) (some { r with withdrawAsked := false, deferred := none }) ∧
    (withdrawLeft r s).ri = s.ri ∧ (withdrawLeft r s).hp = s.hp ∧
    (∀ why, r.deferred = some why → newEntry (.yield r.lock (r.generation.getD 0) why) ∈ (withdrawLeft r s).oq.entries) := by
  refine ⟨?_, by simp, by simp, fun why hwhy => by simp [withdrawLeft, hwhy, placeEntry]⟩
  unfold withdrawLeft
  dsimp only
  split <;> simp [setSlot_slots]

end Sys2Proof.Machine
end

section
/-! PROOFS. The own frames that change one lock (R33, R53, R62, R64): how its outcome reaches the sender's record, and what the blocks do
after it. -/

namespace Sys2Proof.Machine

variable {s t u w : State} {rd : Reading} {f : Frame} {l : Lock} {r : HoldRecord} {g : Generation} {o : LockOutcome}

/-- The report of an own applied frame that changes one lock. -/
def ownLockReport (f : Frame) (outcomes : List LockOutcome) : Report := { plainReport true f .applied with outcomes := outcomes }

/-- The outcomes are taken first; then the blocks react as to an own frame that has none (R38). -/
theorem handOn_ownLock (outcomes : List LockOutcome) (w : State) :
    handOn (ownLockReport f outcomes) w = handOn (transferReport true f []) (takeOutcomes outcomes w) := by
  change reactApplied _ w = reactApplied _ (takeOutcomes outcomes w)
  rfl

/-! ### The state in which the outcome is taken -/

theorem freshGuard_congr (h : u.sc = s.sc) : u.freshGuard = s.freshGuard := by
  have htime : guardTimeOf u = guardTimeOf s := by simp only [guardTimeOf, h]
  simp only [State.freshGuard, htime]

/-- The sender of a lock frame with its own entry gone and the frame applied, before its blocks react (R33, R34, R152). -/
structure State.lockSent (s w : State) : Prop where
  busSeq : w.au.replica.busSeq = s.au.replica.busSeq + 1
  sc : w.sc = s.sc
  rt : w.rt = s.rt
  gl : w.gl = s.gl
  ri : w.ri = s.ri
  hp : w.hp = s.hp
  pm : fenceSet w = fenceSet s
  station : w.station = s.station
  queue : w.oq.entries = s.oq.entries.filter fun e => !e.contending

namespace State.lockSent

theorem recordFor (h : s.lockSent w) (l : Lock) : recordFor w l = recordFor s l := recordFor_congr h.rt l

theorem bound (h : s.lockSent w) (hb : s.bound r) : w.sc.state = .member → w.bound r := fun _ => (bound_congr h.sc r).mpr hb

theorem pinFell (h : s.lockSent w) : w.pinFell r = s.pinFell r := by
  simp only [State.pinFell, h.sc, h.ri]

theorem grantTaken (h : s.lockSent w) (hr : r.state = .claiming ∨ r.state = .claimCancel) :
    w.grantTaken r g = s.grantTaken r g := by
  simp only [State.grantTaken, h.pinFell, markStays_claim hr, h.sc]

theorem grantBinding (h : s.lockSent w) (n : GrantLine) : grantBinding w n = grantBinding s n := by
  simp only [Machine.grantBinding, h.sc]

/-- The station is fenced as its fence set says. -/
theorem fenced (h : s.lockSent w) : fenced w = fenced s := by
  have hset := h.pm
  simp only [fenceSet, Prod.mk.injEq] at hset
  obtain ⟨hcontact, hquorum⟩ := hset
  simp only [Machine.fenced, hcontact, hquorum]

end State.lockSent

/-- An own lock frame in step is accepted and its change applied to the entry (R33, R34). -/
theorem ownLock_applied {change : LockEntry → EntryChange} (h : s.sendsInStep rd f)
    (hk : f.kind ≠ .found) (hm : s.tc.uncollected[lockField f.payload] = false)
    (happly : ∀ same r, applyKind s.tc.uncollected same true f r
      = ((applyToLock s.tc.uncollected (lockField f.payload) change r).1,
         ownLockReport f (applyToLock s.tc.uncollected (lockField f.payload) change r).2)) :
    ∃ w, s.lockSent w ∧ exec (frameCommand f.kind rd) s
      = .next (handOn (ownLockReport f (change s.au.replica.table[lockField f.payload]).2) w) := by
  obtain ⟨hsends, hstate, -, hstep⟩ := h
  have hv : voting s.sc.state = true := by
    rcases hstate with hs | ⟨hs, -⟩ <;> rw [hs] <;> rfl
  obtain ⟨x, -, hexec⟩ := acceptOwn_applied s hsends hv (dispositionOf_inStep s hk hstep) fun _ => by
    rw [happly]
    rfl
  rw [happly, applyToLock_clear _ _ hm] at hexec
  refine ⟨_, ?_, hexec⟩
  obtain ⟨eau, esc, -, ert, eri, ehp, egl, estation, eoq, epm⟩ := ownAccepted_effect f.kind ((s.withLc x).withAu
    { s.au with replica := { s.au.replica with
        table := putAt s.au.replica.table (lockField f.payload) (change s.au.replica.table[lockField f.payload]).1,
        busSeq := s.au.replica.busSeq + 1 } })
  exact ⟨by rw [eau]; rfl, esc, ert, egl, eri, ehp, by simp only [fenceSet, epm]; rfl, estation, eoq⟩

/-! ### What the blocks do after the outcome -/

/-- The sender of a lock frame once its blocks have reacted, where u is the state with the outcome taken: own contact restarted, CONTACT off
the fence set, and one change of that set (R53, R61, R62, R64). -/
structure State.lockReacted (s u t : State) : Prop where
  sc : t.sc = s.sc
  rt : t.rt = u.rt
  ri : t.ri = u.ri
  ownContact : t.pm.ownContact = 0
  contact : t.pm.contact = false
  quorum : t.pm.quorum = s.pm.quorum
  taken : u.sc = s.sc ∧ fenceSet u = fenceSet s
  moved : u.guardsMoved t
  hp : t.hp = u.hp.noticed s.contactLeft
  kept : t.oq.entries.filter (fun e => e.contending || isRequest e.content)
    = u.oq.entries.filter fun e => e.contending || isRequest e.content

/-- The blocks' reactions after one outcome (R38, R53). -/
theorem State.lockSent.reacted (h : s.lockSent w) (hp : present s.sc.state = true) (hk : f.kind ≠ .evict)
    (hd : f.kind ≠ .depart) {outcomes : List LockOutcome}
    (hout : outcomes.filter (fun o => o.subject == s.station) = [o]) :
    s.lockReacted (takeOutcome o w) (handOn (ownLockReport f outcomes) w) := by
  have htake : takeOutcomes outcomes w = takeOutcome o w := by
    rw [takeOutcomes, h.station, hout, List.foldl_cons, List.foldl_nil]
  rw [handOn_ownLock, htake]
  have hcalm : TransferEvent.roundRestarted ∉ ([] : List TransferEvent) ∧ .roundDissolved ∉ ([] : List TransferEvent) := by simp
  have hset : fenceSet (takeOutcome o w) = fenceSet s := by
    rw [← h.pm]
    simp only [fenceSet, takeOutcome_frame]
  have husc : (takeOutcome o w).sc = s.sc := by simpa using h.sc
  have huq : (takeOutcome o w).au.replica.busSeq = s.au.replica.busSeq + 1 := by simpa using h.busSeq
  generalize takeOutcome o w = u at *
  have hquorum : u.pm.quorum = s.pm.quorum := congrArg Prod.snd hset
  have hup : present u.sc.state = true := by rw [husc]; exact hp
  have huv : voting u.sc.state = true := by revert hup; cases u.sc.state <;> simp [present, voting]
  obtain ⟨-, osc, -, -, ort, ori, -, -, ooq⟩ := handOn_own u (transferReport_plain (f := f) true hcalm) rfl rfl hd huv fun hc => by
    rw [hc] at hup
    cases hup
  obtain ⟨hown, hcontact, -, hq, hmoved, hhp⟩ := handOn_ownTransfer_present (f := f) (s := u) hcalm hk hd hup
  have hnone : takeOutcomes (transferReport true f []).outcomes u = u := rfl
  rw [hnone] at ort ori ooq
  refine ⟨osc.trans husc, ort, ori, hown, hcontact, hq.trans hquorum, ⟨husc, hset⟩, hmoved, ?_, ooq⟩
  rw [hhp, hset, hquorum, huq, State.contactLeft]

namespace State.lockReacted

/-- An own frame takes a cause off the fence set and puts none on (R53, R61). -/
theorem unfenced (h : s.lockReacted u t) (hf : fenced s = false) : fenced t = false := by
  simp only [fenced, Bool.or_eq_false_iff] at hf ⊢
  exact ⟨h.contact, h.quorum.trans hf.2⟩

theorem fenced_taken (h : s.lockReacted u t) : fenced u = fenced s := by
  obtain ⟨-, hset⟩ := h.taken
  simp only [fenceSet, Prod.mk.injEq] at hset
  obtain ⟨hcontact, hquorum⟩ := hset
  simp only [fenced, hcontact, hquorum]

/-- An outcome that moves no line leaves the guards to the fence set (R64). -/
theorem guardsMoved (h : s.lockReacted u t) (hgl : u.gl = s.gl) : s.guardsMoved t := by
  obtain ⟨hsc, -⟩ := h.taken
  have hbind : ∀ n, grantBinding u n = grantBinding s n := fun n => by simp only [grantBinding, hsc]
  simpa only [State.guardsMoved, h.fenced_taken, hbind, freshGuard_congr hsc, hgl] using h.moved

/-- In DEPARTING, where there is no fence cause, the lines stay as the outcome left them (R61, R123). -/
theorem sameLines (h : s.lockReacted u t) (hf : fenceSet s = (false, false)) : t.gl = u.gl := by
  have hs : fenced s = false := by
    simp only [fenceSet, Prod.mk.injEq] at hf
    simp [fenced, hf]
  obtain ⟨hsame, -, -⟩ := h.moved
  exact hsame ((h.unfenced hs).trans (h.fenced_taken.trans hs).symm)

theorem noticed (h : s.lockReacted u t) (hw : s.lockSent w) {n : List Notice} (hu : u.hp = w.hp.noticed n) :
    t.hp = s.hp.noticed (n ++ s.contactLeft) := by
  rw [h.hp, hu, hw.hp, HostPort.noticed_append]

/-- Frames that the outcome did not place are not placed (R123). -/
theorem placesNone (h : s.lockReacted u t) (hw : s.lockSent w)
    (hu : s.sc.state = .departing → ∀ e ∈ u.oq.entries, e ∈ w.oq.entries) : s.placesNone t := by
  intro hd e he hreq
  have hwe := hu hd e ((mem_of_kept (.inr hreq) h.kept).mp he)
  rw [hw.queue] at hwe
  exact (List.mem_filter.mp hwe).1

/-- Outside MEMBER no line is active (R129). -/
theorem inactive (h : s.lockReacted u t) (hd : s.sc.state = .departing) (n : GrantLine) : grantActive t n = false := by
  simp [grantActive, h.sc, hd]

end State.lockReacted

/-- An own lock frame with one outcome for this station: taken on the record, then the blocks react (R33, R38, R53). -/
theorem ownLock_taken {change : LockEntry → EntryChange} (h : s.sendsInStep rd f)
    (hk : f.kind = .claim ∨ f.kind = .yield ∨ f.kind = .withdraw) (hl : lockField f.payload = l)
    (hm : s.tc.uncollected[l] = false)
    (happly : ∀ same r, applyKind s.tc.uncollected same true f r
      = ((applyToLock s.tc.uncollected (lockField f.payload) change r).1,
         ownLockReport f (applyToLock s.tc.uncollected (lockField f.payload) change r).2))
    (hout : (change s.au.replica.table[l]).2.filter (fun o => o.subject == s.station) = [o]) :
    ∃ w t, s.lockSent w ∧ exec (frameCommand f.kind rd) s = .next t ∧ s.lockReacted (takeOutcome o w) t := by
  subst hl
  have hplain : f.kind ≠ .found ∧ f.kind ≠ .evict ∧ f.kind ≠ .depart := by
    rcases hk with hk | hk | hk <;> simp [hk]
  obtain ⟨hfound, hevict, hdepart⟩ := hplain
  obtain ⟨w, hw, hexec⟩ := ownLock_applied h hfound hm happly
  have hp : present s.sc.state = true := by
    rcases h.2.1 with hs | ⟨hs, -⟩ <;> rw [hs] <;> rfl
  exact ⟨w, _, hw, hexec, hw.reacted hp hevict hdepart hout⟩

end Sys2Proof.Machine
end

section
/-! PROOFS. The own CLAIM taken on its record (R11 to R13, R113, R114, R123). -/

namespace Sys2Proof.Machine

variable {s t u w : State} {rd : Reading} {f : Frame} {l : Lock} {r : HoldRecord} {g : Generation} {o : LockOutcome} {e : LockEntry}
variable {k : Station} {m : Mode}

/-! ### The answer of the lock's entry -/

/-- The outcome that an entry gives to the CLAIM of a station (R11, R13). -/
structure LockEntry.Answers (e : LockEntry) (k : Station) (m : Mode) (o : LockOutcome) : Prop where
  free : e.holder = none → o.name = .granted ∧ o.generation = e.generation + 1
  held : e.holder = some k → o.name = .alreadyHeld ∧ o.generation = e.generation
  other : ∀ h, e.holder = some h → h ≠ k → o.generation = e.generation ∧ o.name ≠ .granted ∧ o.name ≠ .alreadyHeld ∧
    (k ∈ e.waiters ∨ m = .wait ∧ e.waiters.length < 8 → o.name = .queued ∨ o.name = .alreadyWaiting) ∧
    (k ∉ e.waiters → m = .tryOnly → o.name = .refusedBusy) ∧
    (k ∉ e.waiters → m = .wait → 8 ≤ e.waiters.length → o.name = .refusedFull)
  claims : o.name ≠ .notWaiting

theorem claimEntry_answers (k : Station) (m : Mode) (l : Lock) (e : LockEntry) :
    ∃ o, (claimEntry k m l e).2 = [o] ∧ o.lock = l ∧ o.subject = k ∧ e.Answers k m o := by
  unfold claimEntry
  split
  next hfree => exact ⟨_, rfl, rfl, rfl, by constructor <;> simp [hfree, outcomeOf]⟩
  next h hheld =>
    split
    next hown => exact ⟨_, rfl, rfl, rfl, by constructor <;> simp [hheld, hown, outcomeOf]⟩
    next hother =>
      split
      next hwaits => exact ⟨_, rfl, rfl, rfl, by constructor <;> simp [hheld, hother, hwaits, outcomeOf]⟩
      next hnew =>
        split
        · exact ⟨_, rfl, rfl, rfl, by constructor <;> simp [hheld, hother, hnew, outcomeOf]⟩
        · split
          next hfull => exact ⟨_, rfl, rfl, rfl, by constructor <;> simp [hheld, hother, hnew, hfull, outcomeOf]⟩
          next hroom => exact ⟨_, rfl, rfl, rfl, by constructor <;> simp [hheld, hother, hnew, hroom, outcomeOf]⟩

/-- An own CLAIM gives one outcome, the entry's answer, and it is taken on the record (R33, R38). -/
theorem ownClaim_answered (h : s.sendsInStep rd f) (hk : f.kind = .claim) (hl : lockField f.payload = l)
    (hm : s.tc.uncollected[l] = false) :
    ∃ o w t, o.lock = l ∧ s.au.replica.table[l].Answers s.station (modeField f.payload) o ∧ s.lockSent w ∧
      exec (.claimFrame rd) s = .next t ∧ s.lockReacted (takeOutcome o w) t := by
  obtain ⟨o, hout, hlock, hsubject, hanswers⟩ := claimEntry_answers s.station (modeField f.payload) l s.au.replica.table[l]
  obtain ⟨w, t, hw, hexec, ht⟩ := ownLock_taken (o := o) h (.inl hk) hl hm
    (change := claimEntry f.sender (modeField f.payload) (lockField f.payload))
    (fun same x => by simp only [applyKind, hk]; rfl) (by
      rw [h.2.2.1, hl, hout]
      simp [hsubject])
  rw [hk] at hexec
  exact ⟨o, w, t, hlock, hanswers, hw, hexec, ht⟩

/-! ### Granted or already held -/

/-- A grant taken on the record of an own claim, once the blocks have reacted (R108, R113, R120, R130). -/
theorem ownClaim_granted (hw : s.lockSent w) (ht : s.lockReacted (enterHeld r.grantKind false g r w) t) (hlock : r.lock = l)
    (hr : r.state = .claiming ∨ r.state = .claimCancel) (hb : s.bound r)
    (hs : s.sc.state ≠ .member → fenceSet s = (false, false)) :
    t.rt.slots[tierOf l] = some (s.grantTaken r g) ∧ s.grantFollows t l r g ∧
      (s.pinFell r = false → s.guardsStarted t fun j => j = l) ∧ t.ri = s.ri ∧
      t.hp = s.hp.noticed (lockNoticeOf r.grantKind l (some g) .none s :: s.contactLeft) := by
  subst hlock
  obtain ⟨gslots, gri, ghp, goq, gguards⟩ := enterHeld_taken (g := g) hr (hw.bound hb)
  generalize enterHeld r.grantKind false g r w = u at *
  rw [hw.grantTaken hr] at gslots
  rw [hw.busSeq] at ghp
  rw [hw.pinFell] at gguards
  have hslot : t.rt.slots[tierOf r.lock] = some (s.grantTaken r g) := by
    rw [ht.rt, gslots, putAt_get_self]
  refine ⟨hslot, ⟨fun hpin x hx hq ho => ?_, fun hpin => ⟨fun n hn => ?_, fun hmark => ?_⟩⟩, fun hpin => ?_, ht.ri.trans (gri.trans hw.ri),
    ht.noticed hw ghp⟩
  · have hux := (mem_of_kept (.inr (isRequest_of_slot ho)) ht.kept).mp hx
    rw [goq, State.fellEntries, hw.pinFell, hpin] at hux
    simp [hq, ho] at hux
  · have hbind : grantBinding t n = some r.lock := by rw [← hn]; simp only [grantBinding, ht.sc]
    have hrecord : recordFor t r.lock = some (s.grantTaken r g) := recordFor_some.mpr ⟨hslot, grantTaken_lock s r g⟩
    simp [grantActive, hbind, lockHeld, hrecord, grantTaken_fell hpin]
  · rw [mem_of_kept (.inr rfl) ht.kept, goq, State.fellEntries, hw.pinFell, markStays_claim hr, hpin]
    simp
  · have hguards := gguards hpin
    simp only [hw.sc, hw.fenced, hw.grantBinding, freshGuard_congr hw.sc, hw.gl] at hguards
    have hstill : s.sc.state ≠ .member ∨ fenced s = true → u.gl = s.gl := fun hno =>
      congrArg GrantUnit.mk (table_ext fun n => by
        rw [hguards n, if_neg]
        rintro ⟨hmem, hf, -⟩
        rcases hno with hno | hno
        · exact hno hmem
        · simp [hno] at hf)
    refine ⟨fun hmem hf _ n => ?_, fun _ hor => ?_, fun hno => (ht.sameLines (hs hno)).trans (hstill (.inl hno))⟩
    · obtain ⟨hsame, -, -⟩ := ht.moved
      rw [hsame ((ht.unfenced hf).trans (ht.fenced_taken.trans hf).symm), hguards n]
      exact ⟨fun ⟨j, hj, hjl⟩ => if_pos ⟨hmem, hf, hjl ▸ hj⟩, fun hnone => if_neg fun ⟨_, _, hj⟩ => hnone _ hj rfl⟩
    · have hf : fenced s = true := by
        rcases hor with hf | hf
        · exact hf
        · by_contra hno
          rw [ht.unfenced (by simpa using hno)] at hf
          cases hf
      exact ht.guardsMoved (hstill (.inr hf))

/-! ### Queued or already waiting -/

theorem ownClaim_waits (hw : s.lockSent w) (ht : s.lockReacted (enterWaiting g r w) t) (hlock : r.lock = l) (hb : s.bound r)
    (hpin : s.pinFell r = false) :
    t.rt.slots[tierOf l] = some { r with state := .waiting } ∧ t.ri = s.ri ∧
      t.hp = s.hp.noticed (lockNoticeOf .queued l (some g) .none s :: s.contactLeft) := by
  subst hlock
  obtain ⟨wslots, wri, whp⟩ := enterWaiting_taken (g := g) (hw.bound hb) (hw.pinFell.trans hpin)
  rw [hw.busSeq] at whp
  exact ⟨by rw [ht.rt, wslots, putAt_get_self], ht.ri.trans (wri.trans hw.ri), ht.noticed hw whp⟩

theorem ownClaim_withdraws (hw : s.lockSent w) (ht : s.lockReacted (enterWithdrawing r w) t) (hlock : r.lock = l) :
    t.ri = s.ri ∧ t.hp = s.hp.noticed s.contactLeft ∧
    (s.sc.state = .member →
      t.rt.slots[tierOf l] = some { r with state := .withdrawing } ∧ newEntry (.withdraw l) ∈ t.oq.entries) ∧
    (s.sc.state = .departing → t.rt.slots[tierOf l] = some { r with state := .withdrawing, withdrawAsked := false }) := by
  subst hlock
  obtain ⟨wri, whp, wmember, wdeparting⟩ := enterWithdrawing_taken (s := w) (r := r)
  rw [hw.sc] at wmember wdeparting
  refine ⟨ht.ri.trans (wri.trans hw.ri), by rw [ht.hp, whp, hw.hp], fun hm => ?_, fun hd => ?_⟩
  · obtain ⟨wslots, wentry⟩ := wmember hm
    exact ⟨by rw [ht.rt, wslots, putAt_get_self], (mem_of_kept (.inr rfl) ht.kept).mpr wentry⟩
  · rw [ht.rt, wdeparting hd, putAt_get_self]

/-! ### An emptied slot -/

/-- A slot emptied with a notice, by an outcome taken with no pin to look at (R113 to R117). -/
theorem ownLock_emptied {q : NoticeKind} {n : Option Generation} {y : Qualifier} (hw : s.lockSent w) (husc : u.sc = w.sc)
    (hurt : u.rt = w.rt) (huhp : u.hp = w.hp) (huau : u.au = w.au) (ht : s.lockReacted (emptySlot (some (q, n, y)) r u) t)
    (hlock : r.lock = l) (hb : r.origin = .host ∨ s.sc.state = .departing) :
    t.rt.slots = putAt s.rt.slots (tierOf l) none ∧ t.ri = u.ri ∧
      t.hp = s.hp.noticed (lockNoticeOf q l n y s :: s.contactLeft) := by
  subst hlock
  have hstill : r.origin = .host ∨ u.sc.state ≠ .member := hb.imp_right fun hd => by simp [husc, hw.sc, hd]
  obtain ⟨eslots, eri, ehp⟩ := emptySlot_noticed hstill q n y
  rw [huhp, huau, hw.busSeq] at ehp
  exact ⟨by rw [ht.rt, eslots, hurt, hw.rt], ht.ri.trans eri, ht.noticed hw ehp⟩

/-- Settles O39: the entry's answer names the row that the record takes, and the blocks react as to any own frame. -/
theorem ownClaimTaken : Obligations.OwnClaimTaken := by
  intro s rd f l r h hk hl hm hr hb
  obtain ⟨o, w, t, rfl, hanswers, hw, hexec, ht⟩ := ownClaim_answered h hk hl hm
  have hrecord : recordFor w o.lock = some r := (hw.recordFor _).trans hr
  have hwb := hw.bound hb
  have hlock : r.lock = o.lock := (recordFor_some.mp hr).2
  have hcalm : s.sc.state ≠ .member → fenceSet s = (false, false) := fun hno => (h.2.1.resolve_left hno).2
  refine ⟨t, hexec, ht.sc, fun ho => ht.ri.trans ((takeOutcome_inputs hrecord ho).trans hw.ri), ht.ownContact, ht.contact, ht.quorum,
    ht.placesNone hw fun hd e => takeOutcome_entries (hw.sc ▸ hd) hrecord (.inr hanswers.claims), fun hd => ⟨?_, ht.inactive hd⟩,
    fun i hi => ?_, fun g hg hstate => ?_, fun k hholder hother => ?_⟩
  · have hno : s.sc.state ≠ .member := by simp [hd]
    exact (ht.sameLines (hcalm hno)).trans ((takeOutcome_gl o (hw.sc ▸ hno)).trans hw.gl)
  · rw [ht.rt, takeOutcome_keepsOthers hrecord hwb i hi, hw.rt]
  · have hname : (o.name = .granted ∨ o.name = .alreadyHeld) ∧ o.generation = g := by
      rcases hg with ⟨hholder, rfl⟩ | ⟨hholder, rfl⟩
      · exact (hanswers.free hholder).imp_left .inl
      · exact (hanswers.held hholder).imp_left .inr
    obtain ⟨hname, rfl⟩ := hname
    rw [takeOutcome_held hrecord hname hstate] at ht
    exact ownClaim_granted hw ht hlock hstate hb hcalm
  · obtain ⟨hgen, hgranted, hheld, hqueued, hbusy, hfull⟩ := hanswers.other k hholder hother
    refine ⟨ht.guardsMoved ((takeOutcome_lines hrecord hwb hgranted hheld).trans hw.gl), fun hwaits => ?_, fun hnew hbound q hq => ?_⟩
    · rw [← hgen]
      refine ⟨fun hstate hpin => ?_, fun hstate => ?_⟩
      · rw [takeOutcome_waits hrecord (hqueued hwaits) hstate] at ht
        exact ownClaim_waits hw ht hlock hb hpin
      · rw [takeOutcome_withdraws hrecord (hqueued hwaits) hstate] at ht
        exact ownClaim_withdraws hw ht hlock
    · have hrefused : o.name = .refusedBusy ∧ q = .refusedBusy ∨ o.name = .refusedFull ∧ q = .refusedFull := by
        rcases hq with ⟨hmode, rfl⟩ | ⟨hmode, hlen, rfl⟩
        · exact .inl ⟨hbusy hnew hmode, rfl⟩
        · exact .inr ⟨hfull hnew hmode hlen, rfl⟩
      rw [← hgen]
      refine ⟨fun hstate => ?_, fun hstate => ?_⟩
      · rcases hrefused with ⟨hname, rfl⟩ | ⟨hname, rfl⟩
        · rw [takeOutcome_busy hrecord hname hstate] at ht
          obtain ⟨eslots, -, ehp⟩ := ownLock_emptied hw rfl rfl rfl rfl ht hlock hbound
          exact ⟨by rw [eslots, putAt_get_self], fun p _ hno => (by cases hno), ehp⟩
        · rw [takeOutcome_full hrecord hname hstate] at ht
          obtain ⟨eslots, eri, ehp⟩ := ownLock_emptied hw (by simp) (by simp) (by simp) (by simp) ht hlock hbound
          refine ⟨by rw [eslots, putAt_get_self], fun p hp _ => ?_, ehp⟩
          simp [eri, hp, ignoreOrigin, ignorePin, hw.ri]
      · rw [takeOutcome_cancelled hrecord (hrefused.imp And.left And.left) hstate] at ht
        obtain ⟨eslots, eri, ehp⟩ := ownLock_emptied hw rfl rfl rfl rfl ht hlock hbound
        exact ⟨by rw [eslots, putAt_get_self], eri.trans hw.ri, ehp⟩

end Sys2Proof.Machine
end

section
/-! PROOFS. The own YIELD and the own WITHDRAW taken on the record (R16 to R19, R115 to R117, R119, R123). -/

namespace Sys2Proof.Machine

variable {s t u w : State} {rd : Reading} {f : Frame} {l : Lock} {r : HoldRecord} {g : Generation} {o : LockOutcome} {e : LockEntry}
variable {k : Station} {why : Reason}

/-! ### YIELD -/

/-- The outcome that an entry gives to the YIELD of a station (R16, R17). -/
structure LockEntry.Releases (e : LockEntry) (k : Station) (g : Generation) (why : Reason) (o : LockOutcome) : Prop where
  why : o.reason = some why
  own : e.holder = some k ∧ e.generation = g → o.name = .yielded ∧ o.generation = g
  stale : ¬ (e.holder = some k ∧ e.generation = g) → o.name = .stale ∧ o.generation = e.generation

theorem LockEntry.Releases.name (h : e.Releases k g why o) : o.name = .yielded ∨ o.name = .stale := by
  by_cases hown : e.holder = some k ∧ e.generation = g
  · exact .inl (h.own hown).1
  · exact .inr (h.stale hown).1

/-- Of the outcomes of a YIELD the sender, which is not the head waiter, takes the first (R15 to R17). -/
theorem yieldEntry_answers (l : Lock) (hhead : e.waiters.head? ≠ some k) :
    ∃ o, (yieldEntry k g why l e).2.filter (fun o => o.subject == k) = [o] ∧ o.lock = l ∧ e.Releases k g why o := by
  by_cases hown : e.holder = some k ∧ e.generation = g
  · obtain ⟨hholder, rfl⟩ := hown
    refine ⟨{ name := .yielded, lock := l, subject := k, generation := e.generation, reason := some why }, ?_, rfl, rfl,
      fun _ => ⟨rfl, rfl⟩, fun hno => absurd ⟨hholder, rfl⟩ hno⟩
    cases hw : e.waiters with
    | nil =>
      rw [yieldEntry_free hholder hw]
      simp
    | cons x rest =>
      have hx : x ≠ k := by simpa [hw] using hhead
      rw [yieldEntry_handed hholder hw]
      simp [outcomeOf, hx]
  · refine ⟨{ name := .stale, lock := l, subject := k, generation := e.generation, reason := some why }, ?_, rfl, rfl,
      fun hyes => absurd hyes hown, fun _ => ⟨rfl, rfl⟩⟩
    rw [yieldEntry_stale hown]
    simp

/-- An own YIELD gives its sender one outcome, and it is taken on the record (R33, R38). -/
theorem ownYield_answered (h : s.sendsInStep rd f) (hk : f.kind = .yield) (hl : lockField f.payload = l)
    (hm : s.tc.uncollected[l] = false) (hhead : s.au.replica.table[l].waiters.head? ≠ some s.station) :
    ∃ o w t, o.lock = l ∧ s.au.replica.table[l].Releases s.station (generationField f.payload) (reasonField f.flags) o ∧
      s.lockSent w ∧ exec (.yieldFrame rd) s = .next t ∧ s.lockReacted (takeOutcome o w) t := by
  obtain ⟨o, hout, hlock, hreleases⟩ := yieldEntry_answers (g := generationField f.payload) (why := reasonField f.flags) l hhead
  obtain ⟨w, t, hw, hexec, ht⟩ := ownLock_taken (o := o) h (.inr (.inl hk)) hl hm
    (change := yieldEntry f.sender (generationField f.payload) (reasonField f.flags) (lockField f.payload))
    (fun same x => by simp only [applyKind, hk]; rfl) (by rw [h.2.2.1, hl, hout])
  rw [hk] at hexec
  exact ⟨o, w, t, hlock, hreleases, hw, hexec, ht⟩

/-- A slot emptied without a notice, by an outcome taken with no pin to look at (R116). -/
theorem ownLock_ended (hw : s.lockSent w) (ht : s.lockReacted (emptySlot none r w) t) (hlock : r.lock = l)
    (hb : r.origin = .host ∨ s.sc.state = .departing) :
    t.rt.slots = putAt s.rt.slots (tierOf l) none ∧ t.ri = s.ri ∧ t.hp = s.hp.noticed s.contactLeft := by
  subst hlock
  obtain ⟨eslots, eri, ehp⟩ := emptySlot_silent (s := w) (r := r) (hb.imp_right fun hd => by simp [hw.sc, hd])
  exact ⟨by rw [ht.rt, eslots, hw.rt], ht.ri.trans (eri.trans hw.ri), by rw [ht.hp, ehp, hw.hp]⟩

/-- The own YIELD ends its record, whatever its outcome (R115, R116). -/
theorem ownYield_ends (hw : s.lockSent w) (hr : recordFor w o.lock = some r) (hstate : r.state = .yielding)
    (hb : r.origin = .host ∨ s.sc.state = .departing) (hwhy : o.reason = some why) (hname : o.name = .yielded ∨ o.name = .stale)
    (ht : s.lockReacted (takeOutcome o w) t) :
    t.rt.slots = putAt s.rt.slots (tierOf o.lock) none ∧ t.ri = s.ri ∧
    (o.name = .yielded → why = .released →
      t.hp = s.hp.noticed (lockNoticeOf .yielded o.lock (some o.generation) (.stale false) s :: s.contactLeft)) ∧
    (o.name = .yielded → why = .expired → t.hp = s.hp.noticed s.contactLeft) ∧
    (o.name = .stale →
      t.hp = s.hp.noticed (lockNoticeOf .yielded o.lock (some o.generation) (.stale true) s :: s.contactLeft)) := by
  have hlock : r.lock = o.lock := (recordFor_some.mp hr).2
  rcases hname with hname | hname
  · obtain ⟨hreleased, hexpired⟩ := takeOutcome_yielded hr hname hstate
    cases why with
    | released =>
      rw [hreleased hwhy] at ht
      obtain ⟨eslots, eri, ehp⟩ := ownLock_emptied hw rfl rfl rfl rfl ht hlock hb
      exact ⟨eslots, eri.trans hw.ri, fun _ _ => ehp, fun _ h => (by cases h), fun h => (by simp [hname] at h)⟩
    | expired =>
      rw [hexpired hwhy] at ht
      obtain ⟨eslots, eri, ehp⟩ := ownLock_ended hw ht hlock hb
      exact ⟨eslots, eri, fun _ h => (by cases h), fun _ _ => ehp, fun h => (by simp [hname] at h)⟩
  · rw [takeOutcome_stale hr hname hstate] at ht
    obtain ⟨eslots, eri, ehp⟩ := ownLock_emptied hw rfl rfl rfl rfl ht hlock hb
    exact ⟨eslots, eri.trans hw.ri, fun h => (by simp [hname] at h), fun h => (by simp [hname] at h), fun _ => ehp⟩

/-! ### WITHDRAW -/

theorem withdrawEntry_answers (k : Station) (l : Lock) (e : LockEntry) :
    ∃ o, (withdrawEntry k l e).2 = [o] ∧ o.lock = l ∧ o.subject = k ∧ (o.name = .withdrawn ∨ o.name = .notWaiting) ∧
      (k ∉ e.waiters → o.name = .notWaiting) := by
  unfold withdrawEntry
  split
  next hmem => exact ⟨_, rfl, rfl, rfl, .inl rfl, fun hno => absurd hmem hno⟩
  next => exact ⟨_, rfl, rfl, rfl, .inr rfl, fun _ => rfl⟩

/-- An own WITHDRAW gives one outcome, and it is taken on the record (R33, R38). -/
theorem ownWithdraw_answered (h : s.sendsInStep rd f) (hk : f.kind = .withdraw) (hl : lockField f.payload = l)
    (hm : s.tc.uncollected[l] = false) :
    ∃ o w t, o.lock = l ∧ (o.name = .withdrawn ∨ o.name = .notWaiting) ∧
      (s.station ∉ s.au.replica.table[l].waiters → o.name = .notWaiting) ∧ s.lockSent w ∧
      exec (.withdrawFrame rd) s = .next t ∧ s.lockReacted (takeOutcome o w) t := by
  obtain ⟨o, hout, hlock, hsubject, hname, hleft⟩ := withdrawEntry_answers s.station l s.au.replica.table[l]
  obtain ⟨w, t, hw, hexec, ht⟩ := ownLock_taken (o := o) h (.inr (.inr hk)) hl hm
    (change := withdrawEntry f.sender (lockField f.payload)) (fun same x => by simp only [applyKind, hk]; rfl) (by
      rw [h.2.2.1, hl, hout]
      simp [hsubject])
  rw [hk] at hexec
  exact ⟨o, w, t, hlock, hname, hleft, hw, hexec, ht⟩

/-- A record granted meanwhile loses its mark, and the YIELD deferred behind the WITHDRAW is placed (R117, R119). -/
theorem ownWithdraw_left (hw : s.lockSent w) (ht : s.lockReacted (withdrawLeft r w) t) (hlock : r.lock = l) :
    t.rt.slots = putAt s.rt.slots (tierOf l) (some { r with withdrawAsked := false, deferred := none }) ∧ t.ri = s.ri ∧
      s.guardsMoved t ∧ t.hp = s.hp.noticed s.contactLeft ∧
      (∀ why, r.deferred = some why → newEntry (.yield l (r.generation.getD 0) why) ∈ t.oq.entries) := by
  subst hlock
  obtain ⟨wslots, wri, whp, wplaced⟩ := withdrawLeft_taken (s := w) (r := r)
  exact ⟨by rw [ht.rt, wslots, hw.rt], ht.ri.trans (wri.trans hw.ri), ht.guardsMoved ((by simp : (withdrawLeft r w).gl = w.gl).trans hw.gl),
    by rw [ht.hp, whp, hw.hp], fun why hwhy => (mem_of_kept (.inr rfl) ht.kept).mpr (wplaced why hwhy)⟩

/-! ### The obligation -/

/-- A record that has no pin to look at counts as bound. -/
theorem bound_of_still (hw : s.lockSent w) (hb : r.origin = .host ∨ s.sc.state = .departing) : w.sc.state = .member → w.bound r :=
  fun hm => .inl (hb.resolve_right fun hd => by rw [hw.sc, hd] at hm; cases hm)

/-- Settles O40: the YIELD's outcome ends its record, and the WITHDRAW's ends a WITHDRAWING one or clears the mark of one granted meanwhile. -/
theorem ownReleaseTaken : Obligations.OwnReleaseTaken := by
  intro s rd f l r h hl hm hr
  refine ⟨fun hk hstate hb hhead => ?_, fun hk => ?_⟩
  · obtain ⟨o, w, t, rfl, hreleases, hw, hexec, ht⟩ := ownYield_answered h hk hl hm hhead
    have hrecord : recordFor w o.lock = some r := (hw.recordFor _).trans hr
    have hplain : o.name ≠ .granted ∧ o.name ≠ .alreadyHeld ∧ o.name ≠ .notWaiting := by
      rcases hreleases.name with hname | hname <;> simp [hname]
    obtain ⟨hgranted, hheld, hleft⟩ := hplain
    obtain ⟨yslots, yri, yreleased, yexpired, ystale⟩ := ownYield_ends hw hrecord hstate hb hreleases.why hreleases.name ht
    refine ⟨t, hexec, ht.sc, yri, yslots, ht.ownContact, ht.contact, ht.quorum,
      ht.guardsMoved ((takeOutcome_lines hrecord (bound_of_still hw hb) hgranted hheld).trans hw.gl),
      ht.placesNone hw fun hd e => takeOutcome_entries (hw.sc ▸ hd) hrecord (.inr hleft), fun hholder hgen => ?_, fun hno => ?_⟩
    · obtain ⟨hname, hg⟩ := hreleases.own ⟨hholder, hgen⟩
      rw [← hg]
      exact ⟨yreleased hname, yexpired hname⟩
    · obtain ⟨hname, hg⟩ := hreleases.stale hno
      rw [← hg]
      exact ystale hname
  · obtain ⟨o, w, t, rfl, hname, hleft, hw, hexec, ht⟩ := ownWithdraw_answered h hk hl hm
    have hrecord : recordFor w o.lock = some r := (hw.recordFor _).trans hr
    have hlock : r.lock = o.lock := (recordFor_some.mp hr).2
    refine ⟨t, hexec, ht.sc, ht.ownContact, ht.contact, ht.quorum, fun hnone => ?_, fun hstate hb => ?_,
      fun hstate hmark hnot => ?_⟩
    · exact ht.placesNone hw fun hd e => takeOutcome_entries (hw.sc ▸ hd) hrecord (.inl hnone)
    · have hplain : o.name ≠ .granted ∧ o.name ≠ .alreadyHeld := by
        rcases hname with hname | hname <;> simp [hname]
      have hmoved := ht.guardsMoved ((takeOutcome_lines hrecord (bound_of_still hw hb) hplain.1 hplain.2).trans hw.gl)
      rw [takeOutcome_withdrawn hrecord hname hstate] at ht
      obtain ⟨eslots, eri, ehp⟩ := ownLock_emptied hw rfl rfl rfl rfl ht hlock hb
      exact ⟨eslots, eri.trans hw.ri, hmoved, ehp⟩
    · rw [takeOutcome_left hrecord (hleft hnot) hstate hmark] at ht
      obtain ⟨wslots, wri, wmoved, whp, wplaced⟩ := ownWithdraw_left hw ht hlock
      exact ⟨wslots, wri, wmoved, whp, fun why _ => wplaced why⟩

end Sys2Proof.Machine
end

section
/-! PROOFS. JOIN and RESET at the host port (R76, R96, R179, R189), the events that move the line (R77, R163 to R165, R173), and the timers of
the joining states (R77, R83, R89). -/

namespace Sys2Proof.Machine

variable {s : State}

/-! ### Commands without arguments -/

/-- The state in which a block takes a command without arguments: its command byte has been received (R181, R182). -/
def State.commandReceived (s : State) (c : HostCommand) : State :=
  s.withHp { s.hp with phase := .turnaround, bits := 8, taken := some c }

/-- Settles O6: by the station state in which JOIN is taken. -/
theorem joinTaken : Obligations.JoinTaken := by
  intro s hport
  have hexec : exec .joinCommand s = .next (holdResult (answerJoin (s.commandReceived .join))) :=
    congrArg Host.Outcome.next (takeCommand_open answerJoin hport rfl rfl)
  have hsc : (s.commandReceived .join).sc = s.sc := rfl
  refine ⟨fun hready => ?_, fun hother => ?_⟩
  · rw [hexec, answerJoin, hsc, if_pos hready]
    rfl
  · rw [hexec, answerJoin, hsc, if_neg hother]
    rfl

/-- The soft reset written out; its notice finds the queue empty (R96, R179, R198). -/
theorem softReset_eq (s : State) : softReset s =
    { s with
      lc := clearFaults { s.lc with state := .seeking, sending := none, recessive := 0, collisions := 0 },
      au := .cleared, pm := .idle, tc := .cleared, rt := .empty, oq := { entries := [] }, gl := .stopped,
      sc := { StationController.reset with
              state := if s.sc.config.isSome then .ready else .unconfigured, config := s.sc.config },
      hp := { s.hp with notices := [stationNoticeOf .resetDone], overflow := false, truncated := false,
                        lateOverflow := false } } := rfl

/-- Settles O8: the soft reset does not look at the station state. -/
theorem resetTaken : Obligations.ResetTaken := by
  intro s hport
  have hexec : exec .resetCommand s = .next (holdResult (answer .ok (softReset (s.commandReceived .reset)))) :=
    congrArg Host.Outcome.next (takeCommand_open (fun t => answer .ok (softReset t)) hport rfl rfl)
  rw [hexec, softReset_eq]
  exact ⟨_, rfl, rfl, rfl, rfl, rfl, rfl, rfl, rfl, rfl, rfl, rfl, rfl, rfl, rfl, rfl, rfl, rfl, rfl, rfl, rfl⟩

/-! ### The line -/

theorem contendingEntry_isSome (s : State) : (contendingEntry s).isSome = s.oq.entries.any (·.contending) :=
  List.isSome_find? ..

/-- A start bit confirmed, by the attempt under way and the station state (R77, R163, R165). -/
theorem startFrame_eq (s : State) : startFrame s =
    { s with
      lc := { s.lc with state := if s.oq.entries.any (·.contending) then .sending else .receiving, cells := [],
                        crc := 0xFFFF, recessive := 0 },
      sc := { s.sc with foundingTimer := if s.sc.state = .listen then 0 else s.sc.foundingTimer } } := by
  rw [startFrame, contendingEntry_isSome]
  by_cases hlisten : s.sc.state = .listen
  · rw [if_pos hlisten, if_pos hlisten]
    rfl
  · rw [if_neg hlisten, if_neg hlisten]
    rfl

/-- Settles O18: each event by the line state that it finds. -/
theorem lineFollowsBus : Obligations.LineFollowsBus := by
  intro s hin
  refine ⟨fun hline => ?_, fun hline => ?_, fun hline => ?_, fun hline => ?_⟩
  · have hexec : exec .startBitConfirmed s = .next (startFrame s) := by simp [exec, execStartBitConfirmed, hin, hline]
    rw [hexec, startFrame_eq]
  · simp [exec, execBusIdle, hin, hline, State.withLc]
  · simp [exec, execBusIdle, hin, hline, State.withLc]
  · simp [exec, execEndFault, hin, hline, State.withLc]

/-! ### The timers of the joining states -/

/-- A non-voting station goes to another non-voting state with its line, queue and host port as they were (R74). -/
theorem enterState_idle {x : StationState} (hs : voting s.sc.state = false) (hx : voting x = false) :
    (enterState x s).sc = s.sc.inState x ∧ (enterState x s).lc = s.lc ∧ (enterState x s).oq = s.oq ∧
    (enterState x s).hp = s.hp ∧ (enterState x s).ri = s.ri := by
  refine ⟨enterState_sc s x, ?_, ?_, by simp, by simp⟩
  · rw [enterState_lc, hs, hx, if_pos rfl]
  · rw [enterState_oq, hs, if_neg (by simp)]

/-- A station in a state without a vote has its replica and its collection cleared (R30). -/
theorem enterState_cleared (s : State) {x : StationState} (hx : voting x = false) :
    (enterState x s).au = .cleared ∧ (enterState x s).tc = .cleared := by
  simp [enterState_au, enterState_tc, hx]

/-- A join given up from s: the station is in READY with what it held on the bus cleared, and a notice is placed (R30, R73, R80, R81, R83, R90). -/
structure State.joinGivenUp (s : State) (k : NoticeKind) (t : State) : Prop where
  sc : t.sc = s.sc.inState .ready
  au : t.au = .cleared
  tc : t.tc = .cleared
  rt : t.rt = .empty
  pm : t.pm = .idle
  gl : t.gl = .stopped
  ri : t.ri = s.ri
  hp : t.hp = s.hp.noticed [stationNoticeOf k]
  lc : t.lc = if voting s.sc.state then clearFaults s.lc else s.lc
  oq : t.oq = if voting s.sc.state then (purgeAll s).oq else s.oq

theorem giveUpJoin_ready (k : NoticeKind) (s : State) : s.joinGivenUp k (giveUpJoin k none s) := by
  obtain ⟨hau, htc⟩ := enterState_cleared s (x := .ready) rfl
  have hv : voting .ready = false := rfl
  refine ⟨by simp [giveUpJoin, enterState_sc], by simp [giveUpJoin, hau], by simp [giveUpJoin, htc],
    by simp [giveUpJoin, enterState_rt, present], by simp [giveUpJoin, enterState_pm, present],
    by simp [giveUpJoin, enterState_gl], by simp, ?_, ?_, ?_⟩
  · rw [giveUpJoin, stationNotice_hp, hau]
    simp [stationNoticeOf, ApplyUnit.cleared, Replica.cleared]
  · cases hs : voting s.sc.state <;> simp [giveUpJoin, enterState_lc, hs, hv]
  · cases hs : voting s.sc.state <;> simp [giveUpJoin, enterState_oq, hs, hv]

/-- The station once the round timer has advanced the ask count (R83, R89). -/
def State.askedAgain (s : State) : State := s.withSc { s.sc with askCount := min 4 (s.sc.askCount + 1) }

theorem askedAgain_sc (h : s.sc.askCount ≤ 3) : s.askedAgain.sc = { s.sc with askCount := s.sc.askCount + 1 } := by
  have hmin : min 4 (s.sc.askCount + 1) = s.sc.askCount + 1 := by omega
  rw [State.askedAgain, State.withSc_sc, hmin]

theorem roundOut_listens (h : s.sc.askCount < 3) : roundOut s = enterState .listen s.askedAgain :=
  if_pos (by omega)

theorem roundOut_givesUp (h : ¬ s.sc.askCount < 3) : roundOut s = giveUpJoin .joinFailed none s.askedAgain :=
  if_neg (by omega)

theorem roundOut_cleared (s : State) : (roundOut s).au = .cleared ∧ (roundOut s).tc = .cleared := by
  by_cases hlow : s.sc.askCount < 3
  · rw [roundOut_listens hlow]
    exact enterState_cleared _ rfl
  · rw [roundOut_givesUp hlow]
    have h := giveUpJoin_ready .joinFailed s.askedAgain
    exact ⟨h.au, h.tc⟩

/-- Settles O47: the founding timer by the free JOINING place, the round timer by the ask count. -/
theorem joinTimers : Obligations.JoinTimers := by
  intro s
  refine ⟨fun hlisten hfree => ?_, fun hstate => ?_⟩
  · obtain ⟨hsc, hlc, hoq, hhp, hri⟩ := enterState_idle (s := s) (x := .founding) (by rw [hlisten]; rfl) rfl
    refine ⟨placeEntry .found (enterState .founding s), ?_, hsc, ?_, hhp, hri, hlc⟩
    · simp only [exec, execFoundingWait, hlisten, (hasEntry_false _).mpr hfree, and_self, if_true]
    · rw [placeEntry, hoq]
      rfl
  · have hexec : exec .roundTimeout s = .next (roundOut s) := by
      rcases hstate with h | h <;> simp only [exec, execRoundTimeout, h]
    obtain ⟨hau, htc⟩ := roundOut_cleared s
    refine ⟨_, hexec, hau, htc, by simp, fun hlow => ?_, fun hlast => ?_⟩
    · rw [roundOut_listens hlow, enterState_sc, askedAgain_sc (by omega)]
      exact ⟨rfl, by simp [State.askedAgain]⟩
    · have h := giveUpJoin_ready .joinFailed s.askedAgain
      rw [roundOut_givesUp (by omega), h.sc, h.hp, askedAgain_sc (by omega), hlast]
      exact ⟨rfl, rfl⟩

end Sys2Proof.Machine
end

section
/-! PROOFS. The end of an attempt without acceptance (R150, R151, R155, R166, R167): how the three commands reach it, and what becomes of the
entry, said once for station entries and requests alike. -/

namespace Sys2Proof.Machine

variable {s t : State} {before after : List Entry} {e : Entry} {c : Instr} {voided : Bool} {x : LineController}

/-! ### The entry of the attempt -/

/-- An attempt does not look at the line. -/
theorem State.attempts.onLine (h : s.attempts before e after) (x : LineController) : (s.withLc x).attempts before e after := h

theorem State.attempts.outOfReset (h : s.attempts before e after) : s.inReset = false := h.1

theorem State.attempts.othersQueued (h : s.attempts before e after) : ∀ x ∈ before ++ after, x.contending = false := h.2.2.2

theorem State.attempts.contendingEntry (h : s.attempts before e after) : contendingEntry s = some e := by
  obtain ⟨-, hq, he, hrest⟩ := h
  exact (returnContending_attempt_entry 0 hq he hrest).1

theorem State.attempts.returned (h : s.attempts before e after) (n : Nat) :
    returnContending n s = s.withEntries (before ++ { e with contending := false, voids := n } :: after) := by
  obtain ⟨-, hq, he, hrest⟩ := h
  exact congrArg s.withEntries (returnContending_attempt_entry n hq he hrest).2

theorem State.attempts.removed (h : s.attempts before e after) : removeContending s = s.withEntries (before ++ after) := by
  obtain ⟨-, hq, he, hrest⟩ := h
  have hbefore : before.filter (fun x => !x.contending) = before :=
    List.filter_eq_self.mpr fun x hx => by simp [hrest x (by simp [hx])]
  have hafter : after.filter (fun x => !x.contending) = after :=
    List.filter_eq_self.mpr fun x hx => by simp [hrest x (by simp [hx])]
  rw [removeContending, hq, List.filter_append, List.filter_cons, hbefore, hafter, he]
  rfl

/-- The void that has just come is the sixteenth of an entry of an abandonable kind (R151). -/
def Entry.abandoned (e : Entry) (voided : Bool) : Bool := voided && abandonable e.content && decide (15 ≤ e.voids)

/-- The end of the attempt of e, by the branches of R150, R151, R154 and R155; the frame on the line has been let go. -/
theorem State.attempts.returnAttempt (h : s.attempts before e after) (hs : s.lc.sending = none) (voided : Bool) :
    returnAttempt voided s =
      if e.discard then s.withEntries (before ++ after)
      else if s.sc.state = .departing ∧ isRequest e.content = true then
        dropRequest (ownerOf e.content) (s.withEntries (before ++ after))
      else if isRequest e.content then requestReturned (e.abandoned voided) (e.returned voided).voids e.content s
      else if e.abandoned voided then joinAbandoned e.content (s.withEntries (before ++ after))
      else s.withEntries (before ++ e.returned voided :: after) := by
  have hline : s.withLc { s.lc with sending := none } = s := by rw [← hs]; rfl
  have hlast : (voided && abandonable e.content &&
      decide (16 ≤ if voided && abandonable e.content then e.voids + 1 else e.voids)) = e.abandoned voided := by
    rw [Entry.abandoned]
    cases voided && abandonable e.content <;> simp
  simp only [Machine.returnAttempt, hline, h.contendingEntry, hlast, h.removed, h.returned]
  rfl

/-- The frame on the line is let go first of all (R149). -/
theorem returnAttempt_letsGo (voided : Bool) (s : State) (y : LineController) :
    returnAttempt voided (s.withLc y) = returnAttempt voided (s.withLc { y with sending := none }) := rfl

/-! ### The counts of an own attempt -/

/-- The transmit fault count after an attempt that was sent (R177). -/
def State.transmitCount (s : State) (mismatch : Bool) : Nat :=
  if voting s.sc.state then (if mismatch then min 8 (s.lc.txFaults + 1) else 0) else s.lc.txFaults

theorem countTransmit_eq (mismatch : Bool) (s : State) :
    countTransmit mismatch s = s.withLc { s.lc with txFaults := s.transmitCount mismatch } := by
  unfold countTransmit State.transmitCount
  split <;> rfl

/-- The line after an own start bit that was not confirmed (R166, R177). -/
def State.unconfirmedLine (s : State) : LineController := { s.lc with sending := none, txFaults := s.transmitCount true }

/-- The mute condition does not look at the frame being sent (R177). -/
theorem mutes_letsGo (s : State) (y : LineController) : mutes (s.withLc y) = mutes (s.withLc { y with sending := none }) := rfl

theorem exec_unconfirmedStartBit (h : s.attempts before e after) (hline : s.lc.state = .idle) :
    exec .unconfirmedStartBit s
      = .next (reportMute (mutes (s.withLc s.unconfirmedLine)) (returnAttempt true (s.withLc s.unconfirmedLine))) := by
  have hexec : exec .unconfirmedStartBit s
      = .next (reportMute (mutes (countTransmit true s)) (returnAttempt true (countTransmit true s))) :=
    congrArg Host.Outcome.next (if_pos ⟨h.outOfReset, hline, by rw [h.contendingEntry]; rfl⟩)
  rw [hexec, countTransmit_eq, mutes_letsGo, returnAttempt_letsGo]
  rfl

/-- The line after the dominant verdict bit of an own frame, with the reading compared to what was sent (R170, R172, R175, R177). -/
def State.voidedLine (s : State) (f : Frame) (rd : Reading) : LineController :=
  { s.lc with
    state := .closing, sending := none, cells := rd.cells, crc := crcOf (frameBytes f),
    collisions := if collisionIn (frameCells f) rd then (if 4 ≤ s.lc.collisions + 1 then 0 else s.lc.collisions + 1) else 0,
    txFaults := s.transmitCount (mistransmitIn (frameCells f) rd) }

/-- The counts of an own frame that was voided, before the frame is let go (R175, R177). -/
theorem voidedCounts_line (f : Frame) (rd : Reading) (s : State) : ∃ y : LineController,
    countTransmit (mistransmitIn (frameCells f) rd)
      (countCollision (collisionIn (frameCells f) rd) (setLine .closing (keepSent f rd.cells s))) = s.withLc y ∧
    { y with sending := none } = s.voidedLine f rd := by
  rw [countTransmit_eq]
  refine ⟨_, rfl, ?_⟩
  simp only [countCollision, setLine, keepSent, State.withLc_lc, State.withLc_sc, State.transmitCount, State.voidedLine]
  rfl

theorem exec_frameVoided_sending {f : Frame} (hin : s.inReset = false) (hline : s.lc.state = .sending)
    (hsending : s.lc.sending = some f) (rd : Reading) :
    exec (.frameVoided rd) s = .next (reportDuplicate (collidesFourth (collisionIn (frameCells f) rd) s)
      (reportMute (mutes (s.withLc (s.voidedLine f rd))) (returnAttempt true (s.withLc (s.voidedLine f rd))))) := by
  have hexec : exec (.frameVoided rd) s = .next (voidOwn f rd s) := by simp [exec, execFrameVoided, hin, hline, hsending]
  obtain ⟨y, hcounts, hy⟩ := voidedCounts_line f rd s
  rw [hexec, voidOwn]
  simp only [hcounts]
  rw [mutes_letsGo, returnAttempt_letsGo, hy]

theorem mutes_iff : mutes s = true ↔ voting s.sc.state = true ∧ s.lc.mute := by
  rw [mutes, Bool.and_eq_true, muteHolds_iff]

/-! ### The three commands -/

/-- A command that ends the attempt leaves the entry to its end, and then reports a mute, if it does, on the counts it leaves (R177). -/
theorem exec_endsAttempt (h : s.attempts before e after) (hends : s.endsAttempt c voided x) :
    x.sending = none ∧ ∃ now : Bool, (now = true → voting s.sc.state = true ∧ x.mute) ∧
      exec c s = .next (reportMute now (returnAttempt voided (s.withLc x))) := by
  rcases hends with ⟨rfl, rfl, hline, rfl⟩ | ⟨rfl, rfl, hline, hx⟩ | ⟨f, rd, rfl, rfl, hline, hsending, hfew, hx⟩
  · refine ⟨rfl, false, (fun hf => by cases hf), ?_⟩
    simp only [exec, execArbitrationLost, h.outOfReset, hline, and_self, if_true]
    rfl
  · have hx : x = s.unconfirmedLine := hx
    subst hx
    exact ⟨rfl, mutes (s.withLc s.unconfirmedLine), mutes_iff.mp, exec_unconfirmedStartBit h hline⟩
  · have hfourth : collidesFourth (collisionIn (frameCells f) rd) s = false := by
      rw [collidesFourth, Bool.and_eq_false_imp]
      exact fun hc => decide_eq_false (by have := hfew hc; omega)
    have hcollisions : (if collisionIn (frameCells f) rd then (if 4 ≤ s.lc.collisions + 1 then 0 else s.lc.collisions + 1)
        else 0) = if collisionIn (frameCells f) rd then s.lc.collisions + 1 else 0 := by
      split
      next hc =>
        have := hfew hc
        exact if_neg (by omega)
      next => rfl
    have htransmit : s.transmitCount (mistransmitIn (frameCells f) rd) = if voting s.sc.state = false then s.lc.txFaults
        else if mistransmitIn (frameCells f) rd then min 8 (s.lc.txFaults + 1) else 0 := by
      unfold State.transmitCount
      cases voting s.sc.state <;> rfl
    have hx : x = s.voidedLine f rd := by rw [hx, State.voidedLine, hcollisions, htransmit]
    subst hx
    refine ⟨rfl, mutes (s.withLc (s.voidedLine f rd)), mutes_iff.mp, ?_⟩
    rw [exec_frameVoided_sending h.outOfReset hline hsending, hfourth]
    rfl

/-! ### The obligation -/

/-- A cause that does not drop the station in its state has no effect (R94). -/
theorem reportMute_still {now : Bool} (h : now = true → voting t.sc.state = false) : reportMute now t = t := by
  cases now with
  | false => rfl
  | true => exact (if_pos rfl).trans (if_neg (by simp [dropsIn, h rfl]))

/-- The joining entries, each in the state that gives up with it (R80, R81, R90). -/
theorem joinAbandoned_givesUp (h : e.content = .found ∧ s.sc.state = .founding ∨ e.content = .syncAsk ∧ s.sc.state = .asking ∨
    e.content = .enrol ∧ s.sc.state = .enrolling) :
    isRequest e.content = false ∧ abandonable e.content = true ∧ joinAbandoned e.content s = giveUpJoin .joinFailed none s ∧
    (voting s.sc.state = true ↔ s.sc.state = .enrolling) := by
  rcases h with ⟨hc, hs⟩ | ⟨hc, hs⟩ | ⟨hc, hs⟩ <;> simp [hc, hs, isRequest, ownerOf, abandonable, joinAbandoned, voting]

/-- A queue with nothing CONTENDING is purged empty (R154). -/
theorem purgeAll_queued {l : List Entry} (h : ∀ x ∈ l, x.contending = false) : (purgeAll (s.withEntries l)).oq.entries = [] := by
  have hnone : l.filter (·.contending) = [] := List.filter_eq_nil_iff.mpr fun x hx => by simp [h x hx]
  simp [purgeAll, hnone]

/-- Settles O19: the line as endsAttempt has it, and the entry by its discard mark and its voids. -/
theorem stationAttemptEnds : Obligations.StationAttemptEnds := by
  intro s before after e c voided x h hends hquiet
  obtain ⟨hsending, now, hmute, hexec⟩ := exec_endsAttempt h hends
  have hmuted : ¬ (e.content = .enrol ∧ e.discard = false ∧ voided = true ∧ 15 ≤ e.voids) → now = false := fun hno => by
    rw [← Bool.not_eq_true]
    intro hnow
    obtain ⟨hv, hx⟩ := hmute hnow
    exact hno (hquiet hv hx)
  rw [hexec, (h.onLine x).returnAttempt hsending]
  refine ⟨fun hd => ?_, fun hd hr hfew => ?_, fun hd hvoided hvoids hjoin => ?_⟩
  · rw [hmuted (by simp [hd]), if_pos hd]
    rfl
  · have hnot : e.abandoned voided = false := by
      simp only [Entry.abandoned, Bool.and_eq_false_imp, Bool.and_eq_true, decide_eq_false_iff_not, Nat.not_le]
      exact fun ⟨hv, ha⟩ => hfew hv ha
    have hnow : now = false := hmuted fun ⟨hc, _, hv, hvoids⟩ => by
      have := hfew hv (by rw [hc]; rfl)
      omega
    simp only [hnow, hd, hr, hnot, Bool.false_eq_true, and_false, if_false]
    rfl
  · obtain ⟨hr, ha, hgive, hvoting⟩ := joinAbandoned_givesUp (s := (s.withLc x).withEntries (before ++ after)) hjoin
    have hlast : e.abandoned voided = true := by simp [Entry.abandoned, hvoided, ha, hvoids]
    have hg := giveUpJoin_ready .joinFailed ((s.withLc x).withEntries (before ++ after))
    rw [← hgive] at hg
    simp only [hd, hr, hlast, Bool.false_eq_true, and_false, if_false, if_true]
    rw [reportMute_still fun _ => by rw [hg.sc]; rfl]
    refine ⟨_, rfl, hg.sc, hg.au, hg.tc, hg.rt, hg.pm, hg.ri, hg.hp, ?_, fun hs => ?_, fun hs => ?_⟩
    · rw [hg.oq]
      by_cases hs : s.sc.state = .enrolling
      · rw [if_pos (hvoting.mpr hs), if_pos hs, purgeAll_queued h.othersQueued]
      · rw [if_neg fun hv => hs (hvoting.mp hv), if_neg hs]
        rfl
    · rw [hg.lc, if_pos (hvoting.mpr hs)]
      rfl
    · rw [hg.lc, if_neg fun hv => hs (hvoting.mp hv)]
      rfl

end Sys2Proof.Machine
end

section
/-! PROOFS. A request input whose slot has just emptied (R104, R107, R108), and what the owner of a voided entry is told (R107, R111, R117,
R151). -/

namespace Sys2Proof.Machine

variable {s t u : State} {l : Lock} {r : HoldRecord} {p : Pin}

/-! ### A new claim of a request input -/

theorem aboveOccupied_iff :
    aboveOccupied s l = true ↔ ∀ (i : Tier) (x : HoldRecord), s.rt.slots[i] = some x → i < tierOf l := by
  simp only [aboveOccupied, List.all_eq_true, List.mem_finRange, true_imp_iff]
  refine forall_congr' fun i => ?_
  cases s.rt.slots[i] <;> simp

theorem anyPending_false :
    anyPending s = false ↔ ∀ (i : Tier) (x : HoldRecord), s.rt.slots[i] = some x → isPending x = false := by
  simp only [anyPending, List.any_eq_false, List.mem_finRange, true_imp_iff]
  refine forall_congr' fun i => ?_
  cases s.rt.slots[i] <;> simp

theorem blocks_false : s.blocks l = false ↔
    ∀ (i : Tier) (x : HoldRecord), s.rt.slots[i] = some x → i ≠ tierOf l → i < tierOf l ∧ isPending x = false := by
  simp only [State.blocks, List.any_eq_false, List.mem_finRange, true_imp_iff]
  refine forall_congr' fun i => ?_
  cases s.rt.slots[i] <;> simp

/-- Where the slot is empty, the tier rule and the pending rule look at the other records alone (R104, R107). -/
theorem claimOpen_iff (hempty : s.rt.slots[tierOf l] = none) : (aboveOccupied s l && !anyPending s) = !s.blocks l := by
  rw [Bool.eq_iff_iff, Bool.and_eq_true, Bool.not_eq_true', Bool.not_eq_true', aboveOccupied_iff, anyPending_false, blocks_false]
  constructor
  · rintro ⟨habove, hfree⟩ i x hx -
    exact ⟨habove i x hx, hfree i x hx⟩
  · intro h
    have hother : ∀ (i : Tier) (x : HoldRecord), s.rt.slots[i] = some x → i ≠ tierOf l := by
      rintro i x hx rfl
      rw [hempty] at hx
      cases hx
    exact ⟨fun i x hx => (h i x hx (hother i x hx)).1, fun i x hx => (h i x hx (hother i x hx)).2⟩

theorem pinClaim_free (hempty : s.rt.slots[tierOf l] = none) (h : s.blocks l = false) :
    pinClaim p l s = placeClaim (.req p) l .wait (requestLimit s p) s :=
  if_pos (by rw [claimOpen_iff hempty, h]; rfl)

theorem pinClaim_blocked (hempty : s.rt.slots[tierOf l] = none) (h : s.blocks l = true) :
    pinClaim p l s = ignorePin p (lockNotice .pinRefused l none .none s) :=
  if_neg (by rw [claimOpen_iff hempty, h]; simp)

/-- The notice of a pin that claims a lock anew: none, or PIN_REFUSED behind another record (R107). -/
theorem pinClaim_hp (hempty : s.rt.slots[tierOf l] = none) :
    (pinClaim p l s).hp = s.hp.noticed (if s.blocks l then [pinRefusedOf s.au.replica.busSeq l] else []) := by
  cases h : s.blocks l
  · rw [pinClaim_free hempty h]
    simp
  · rw [pinClaim_blocked hempty h]
    simp [lockNotice_hp, pinRefusedOf]

theorem blocks_congr (h : s.keepsOthers t l) : t.blocks l = s.blocks l := by
  unfold State.blocks
  congr 1
  funext i
  by_cases hi : i = tierOf l
  · simp [hi]
  · rw [h i hi]

/-- The slot whose pin claims anew holds no record that a drop would revoke: a claim not yet answered, or none (R124). -/
theorem pinClaim_unrevoked (hempty : s.rt.slots[tierOf l] = none) (q : BusSeq) :
    (((pinClaim p l s).rt.slots[tierOf l]).map (revokedNotice q)).getD [] = [] := by
  cases h : s.blocks l
  · rw [pinClaim_free hempty h]
    simp [placeClaim, setSlot, revokedNotice]
  · rw [pinClaim_blocked hempty h]
    simp [hempty]

/-! ### A record that ends with its attempt -/

/-- What the pin of a record whose slot has emptied is told, in MEMBER: PIN_REFUSED if it is asserted, not ignored, and behind another
record (R107, R108). -/
def State.reclaimNotices (s : State) (r : HoldRecord) : List Notice :=
  match r.origin with
  | .host => []
  | .req p =>
    if s.ri.inputs[p].stable && !s.ri.inputs[p].ignored && s.blocks r.lock then [pinRefusedOf s.au.replica.busSeq r.lock] else []

/-- The pin of a record whose slot has emptied claims anew, if it asks and is not ignored (R108). -/
theorem evaluatePin_emptied (hm : s.sc.state = .member) (hbind : requestBinding s p = some l)
    (hempty : s.rt.slots[tierOf l] = none) :
    evaluatePin p s = if s.ri.inputs[p].stable && !s.ri.inputs[p].ignored then pinClaim p l s else s := by
  have hnone : recordFor s l = none := by rw [recordFor, hempty]
  simp only [evaluatePin, hbind, hm, if_true, hnone]

theorem evaluateOrigin_emptied (hm : s.sc.state = .member) (hb : s.bound r) (hempty : s.rt.slots[tierOf r.lock] = none) :
    (evaluateOrigin r.origin s).hp = s.hp.noticed (s.reclaimNotices r) ∧
    ∀ q, (((evaluateOrigin r.origin s).rt.slots[tierOf r.lock]).map (revokedNotice q)).getD [] = [] := by
  rcases hb with ho | ⟨p, ho, hbind⟩
  · simp [evaluateOrigin, State.reclaimNotices, ho, hempty]
  · simp only [evaluateOrigin, State.reclaimNotices, ho, evaluatePin_emptied hm hbind hempty]
    by_cases hasks : (s.ri.inputs[p].stable && !s.ri.inputs[p].ignored) = true
    · simp only [hasks, if_true, Bool.true_and]
      exact ⟨pinClaim_hp hempty, pinClaim_unrevoked hempty⟩
    · rw [Bool.not_eq_true] at hasks
      simp only [hasks, Bool.false_and, Bool.false_eq_true, if_false]
      exact ⟨by simp, fun q => by rw [hempty]; rfl⟩

/-- From s to t the owner of an attempt has been told notices; the line stays, and a drop would revoke the same records (R124). -/
structure State.tellsOwner (s t : State) (l : List Notice) : Prop where
  sc : t.sc = s.sc
  au : t.au = s.au
  lc : t.lc = s.lc
  hp : t.hp = s.hp.noticed l
  revoked : ∀ q, revokedNotices q t.rt = revokedNotices q s.rt

/-- Nothing is told, and the hold list stays. -/
theorem State.tellsOwner.silent (hsc : t.sc = s.sc) (hau : t.au = s.au) (hlc : t.lc = s.lc) (hhp : t.hp = s.hp)
    (hrt : t.rt = s.rt) : s.tellsOwner t [] :=
  ⟨hsc, hau, hlc, by rw [hhp, HostPort.noticed_nil], fun q => by rw [hrt]⟩

theorem State.tellsOwner.trans {a b : List Notice} (h1 : s.tellsOwner t a) (h2 : t.tellsOwner u b) : s.tellsOwner u (a ++ b) :=
  ⟨h2.sc.trans h1.sc, h2.au.trans h1.au, h2.lc.trans h1.lc, by rw [h2.hp, h1.hp, HostPort.noticed_append],
    fun q => (h2.revoked q).trans (h1.revoked q)⟩

/-- A change in one slot that a drop would not tell. -/
theorem revokedNotices_congr {i : Tier} (h : ∀ j : Tier, j ≠ i → t.rt.slots[j] = s.rt.slots[j]) (q : BusSeq)
    (hslot : ((t.rt.slots[i]).map (revokedNotice q)).getD [] = ((s.rt.slots[i]).map (revokedNotice q)).getD []) :
    revokedNotices q t.rt = revokedNotices q s.rt := by
  unfold revokedNotices
  congr 1
  funext j
  by_cases hj : j = i
  · rw [hj, hslot]
  · rw [h j hj]

/-- The withdraw-asked mark and a deferred reason are nothing that a drop tells (R124). -/
theorem revokedNotice_unmarked (q : BusSeq) (r : HoldRecord) (mark : Bool) (why : Option Reason) :
    revokedNotice q { r with withdrawAsked := mark, deferred := why } = revokedNotice q r := by
  unfold revokedNotice
  cases r.state <;> rfl

/-- A record whose claim was not answered ends with a notice, and its pin is looked at again: u is s with the entry out of the queue, and
the pin ignored or not (R107, R108, R111, R117). -/
theorem emptySlot_tellsOwner (hm : s.sc.state = .member) (hb : s.bound r) (hr : recordFor s l = some r)
    (hstate : r.state = .claiming ∨ r.state = .claimCancel) (k : NoticeKind) (hsc : u.sc = s.sc) (hau : u.au = s.au)
    (hlc : u.lc = s.lc) (hhp : u.hp = s.hp) (hrt : u.rt = s.rt) :
    s.tellsOwner (emptySlot (some (k, none, .none)) r u)
      ({ withdrawnNotice l s with kind := k } :: u.reclaimNotices r) := by
  obtain ⟨hslot, rfl⟩ := recordFor_some.mp hr
  generalize hv : lockNotice k r.lock none .none (setSlot (tierOf r.lock) none (cancelRequest (tierOf r.lock) u)) = v
  have hempty : emptySlot (some (k, none, .none)) r u = evaluateOrigin r.origin v := by rw [← hv]; rfl
  have hvsc : v.sc = s.sc := by simp [← hv, hsc]
  have hvslot : v.rt.slots[tierOf r.lock] = none := by simp [← hv, setSlot_slots]
  have hothers : u.keepsOthers v r.lock := State.keepsOthers_of_slot (x := none) (by simp [← hv, setSlot_slots])
  have hvhp : v.hp = s.hp.noticed [{ withdrawnNotice r.lock s with kind := k }] := by
    simp [← hv, lockNotice_hp, hhp, hau, withdrawnNotice]
  have hreclaim : v.reclaimNotices r = u.reclaimNotices r := by
    unfold State.reclaimNotices
    rw [blocks_congr hothers]
    simp [← hv]
  have hvb : v.bound r := (bound_congr hvsc r).mpr hb
  obtain ⟨hnotices, hunrevoked⟩ := evaluateOrigin_emptied (by rw [hvsc, hm]) hvb hvslot
  have hkept : s.keepsOthers (emptySlot (some (k, none, .none)) r u) r.lock := emptySlot_keepsOthers (fun _ => hb) _ hrt hsc
  refine ⟨by simp [hsc], by simp [hau], by simp [hlc], ?_, fun q => revokedNotices_congr hkept q ?_⟩
  · rw [hempty, hnotices, hvhp, hreclaim, HostPort.noticed_append]
    rfl
  · rw [hempty, hunrevoked q, hslot]
    rcases hstate with h | h <;> simp [revokedNotice, h]

/-- A WITHDRAW that has left the queue clears its record's mark, which a drop does not look at (R119, R124). -/
theorem withdrawLeft_tellsOwner (hr : recordFor s l = some r) (hsc : u.sc = s.sc) (hau : u.au = s.au) (hlc : u.lc = s.lc)
    (hhp : u.hp = s.hp) (hrt : u.rt = s.rt) : s.tellsOwner (withdrawLeft r u) [] := by
  obtain ⟨hslot, rfl⟩ := recordFor_some.mp hr
  obtain ⟨hslots, -, -, -⟩ := withdrawLeft_taken (s := u) (r := r)
  rw [hrt] at hslots
  refine ⟨by simp [hsc], by simp [hau], by simp [hlc], by simp [hhp], fun q => ?_⟩
  refine revokedNotices_congr (State.keepsOthers_of_slot hslots) q ?_
  rw [hslots, putAt_get_self, hslot, Option.map_some, revokedNotice_unmarked]
  rfl

theorem dropRequest_tellsOwner (o : Owner) (s : State) : s.tellsOwner (dropRequest o s) [] := by
  unfold dropRequest
  split
  next i =>
    split
    next r hslot =>
      refine ⟨rfl, rfl, rfl, by simp, fun q => revokedNotices_congr (i := i) (fun j hj => ?_) q ?_⟩
      · exact putAt_get_other _ _ (Ne.symm hj)
      · have hmark := revokedNotice_unmarked q r false r.deferred
        rw [setSlot_slots, putAt_get_self, hslot, Option.map_some, Option.map_some, hmark]
    next => exact .silent rfl rfl rfl rfl rfl
  next => exact .silent rfl rfl rfl rfl rfl

/-! ### The notices of a void -/

section
variable {before after : List Entry} {e : Entry} {m : Mode}

/-- With a discard mark, and outside MEMBER, no notice is placed for the entry (R123, R155). -/
theorem voidNotices_unheard (h : e.discard = true ∨ s.sc.state ≠ .member) : s.voidNotices e = [] := by
  unfold State.voidNotices
  split
  · split
    · exact if_pos h
    · rfl
  · rfl

theorem voidNotices_other (h : ∀ l m, e.content ≠ .claim l m) : s.voidNotices e = [] := by
  unfold State.voidNotices
  split
  next l m hc => exact absurd hc (h l m)
  next => rfl

theorem voidNotices_unrecorded (hc : e.content = .claim l m) (hr : recordFor s l = none) : s.voidNotices e = [] := by
  simp only [State.voidNotices, hc, hr]

/-- The notices for the CLAIM of a record at a MEMBER, by the record's state (R111, R117, R151). -/
theorem voidNotices_claim (hc : e.content = .claim l m) (hr : recordFor s l = some r) (hd : e.discard = false)
    (hm : s.sc.state = .member) : s.voidNotices e =
      if r.state = .claimCancel then withdrawnNotice l s :: s.reclaimNotices r
      else if r.state = .claiming ∧ 15 ≤ e.voids then [{ withdrawnNotice l s with kind := .claimFailed }]
      else [] := by
  obtain ⟨-, rfl⟩ := recordFor_some.mp hr
  cases ho : r.origin <;>
    simp only [State.voidNotices, State.reclaimNotices, hc, hr, hd, hm, ho, Bool.false_eq_true, ne_eq, not_true, or_self, if_false]

/-- An ignored pin is not told again (R108, R136). -/
theorem reclaimNotices_ignored (r : HoldRecord) (u : State) : (ignoreOrigin r.origin u).reclaimNotices r = [] := by
  unfold State.reclaimNotices
  split
  next => rfl
  next p ho => simp [ho, ignoreOrigin, ignorePin]

/-- The end of a CLAIM's attempt at a MEMBER, by the state of its record (R111, R117, R151). -/
theorem claimReturned_tellsOwner (hc : e.content = .claim l m) (hr : recordFor s l = some r) (hd : e.discard = false)
    (hm : s.sc.state = .member) (hb : s.bound r) (n : Nat) :
    s.tellsOwner (requestReturned (decide (15 ≤ e.voids)) n e.content s) (s.voidNotices e) := by
  rw [voidNotices_claim hc hr hd hm, hc]
  simp only [requestReturned, hr]
  have hkept : ∀ b : Bool, s.tellsOwner (if b then removeContending s else returnContending n s) [] := fun b => by
    cases b <;> exact .silent rfl rfl rfl rfl rfl
  cases hstate : r.state with
  | claimCancel => exact emptySlot_tellsOwner hm hb hr (.inr hstate) .withdrawn rfl rfl rfl rfl rfl
  | claiming =>
    by_cases hlast : 15 ≤ e.voids
    · have htold := emptySlot_tellsOwner (u := ignoreOrigin r.origin (removeContending s)) hm hb hr (.inl hstate) .claimFailed
        (by simp) (by simp) (by simp) (by simp) (by simp)
      rw [reclaimNotices_ignored] at htold
      simpa [hlast] using htold
    · simpa [hlast] using hkept false
  | waiting | withdrawing | held | yielding => simpa using hkept (decide (15 ≤ e.voids))

/-- The end of a WITHDRAW's attempt tells nothing (R119, R151). -/
theorem withdrawReturned_tellsOwner (b : Bool) (n : Nat) (l : Lock) (s : State) :
    s.tellsOwner (requestReturned b n (.withdraw l) s) [] := by
  cases hr : recordFor s l with
  | none =>
    simp only [requestReturned, hr]
    exact .silent rfl rfl rfl rfl rfl
  | some r =>
    simp only [requestReturned, hr]
    split
    · exact withdrawLeft_tellsOwner hr rfl rfl rfl rfl rfl
    · exact withdrawLeft_tellsOwner hr rfl rfl rfl rfl rfl
    · exact .silent rfl rfl rfl rfl rfl

/-- A request frame given back to the Request Tracker by a void; without presence duties there is no record to tell of. -/
theorem requestReturned_tellsOwner (hrecords : s.recordsBound) (hm : s.sc.state = .member ∨ s.rt = .empty)
    (hd : e.discard = false) (n : Nat) :
    s.tellsOwner (requestReturned (e.abandoned true) n e.content s) (s.voidNotices e) := by
  cases hc : e.content with
  | claim l m =>
    have hlast : e.abandoned true = decide (15 ≤ e.voids) := by simp [Entry.abandoned, hc, abandonable]
    cases hr : recordFor s l with
    | none =>
      rw [voidNotices_unrecorded hc hr]
      simp only [requestReturned, hr]
      split <;> exact .silent rfl rfl rfl rfl rfl
    | some r =>
      have hmember : s.sc.state = .member := hm.resolve_right fun hrt => by
        rw [recordFor_empty hrt] at hr
        cases hr
      rw [hlast, ← hc]
      exact claimReturned_tellsOwner hc hr hd hmember (hrecords _ r (recordFor_some.mp hr).1) n
  | withdraw l =>
    rw [voidNotices_other (by simp [hc])]
    exact withdrawReturned_tellsOwner _ n l s
  | yield | evict | depart | beacon | syncAsk | page | enrol | found =>
    rw [voidNotices_other (by simp [hc])]
    exact .silent rfl rfl rfl rfl rfl

/-- Below its sixteenth void no entry makes a voting station give up: FOUND and SYNC_ASK belong to other states (R80, R81, R90). -/
theorem joinAbandoned_voting {c : Content} (hv : voting s.sc.state = true) (hc : c ≠ .enrol) : joinAbandoned c s = s := by
  unfold joinAbandoned
  split
  next hs => rw [hs] at hv; cases hv
  next hs => rw [hs] at hv; cases hv
  next => exact absurd rfl hc
  next => rfl

/-- The void of an entry of a voting station, but for an ENROL at its sixteenth: its owner is told, and nothing else happens at the
host port. -/
theorem State.attempts.tellsOwner (h : s.attempts before e after) (hs : s.lc.sending = none) (hv : voting s.sc.state = true)
    (hrecords : s.recordsBound) (hp : present s.sc.state = true ∨ s.rt = .empty) (henrol : e.content = .enrol → e.voids < 15) :
    s.tellsOwner (Machine.returnAttempt true s) (s.voidNotices e) := by
  have hout : s.tellsOwner (s.withEntries (before ++ after)) [] := .silent rfl rfl rfl rfl rfl
  rw [h.returnAttempt hs]
  by_cases hd : e.discard = true
  · rw [if_pos hd, voidNotices_unheard (.inl hd)]
    exact hout
  rw [if_neg hd]
  by_cases hdeparting : s.sc.state = .departing ∧ isRequest e.content = true
  · rw [if_pos hdeparting, voidNotices_unheard (.inr (by simp [hdeparting.1]))]
    exact hout.trans (dropRequest_tellsOwner _ _)
  rw [if_neg hdeparting]
  by_cases hr : isRequest e.content = true
  · rw [if_pos hr]
    have hm : s.sc.state = .member ∨ s.rt = .empty := hp.imp_left fun hpresent => by
      have hstay : s.sc.state ≠ .departing := fun hs => hdeparting ⟨hs, hr⟩
      revert hpresent hstay
      cases s.sc.state <;> simp [present]
    exact requestReturned_tellsOwner hrecords hm (by simpa using hd) _
  rw [if_neg hr, voidNotices_other fun l m hc => hr (by simp [hc, isRequest, ownerOf])]
  by_cases hlast : e.abandoned true = true
  · have hc : e.content ≠ .enrol := fun hc => by
      have hvoids := henrol hc
      simp only [Entry.abandoned, Bool.and_eq_true, decide_eq_true_eq] at hlast
      omega
    rw [if_pos hlast, joinAbandoned_voting (s := s.withEntries (before ++ after)) hv hc]
    exact hout
  · rw [if_neg hlast]
    exact .silent rfl rfl rfl rfl rfl

end

end Sys2Proof.Machine
end

section
/-! PROOFS. The line faults that drop a voting station (R94, R95, R169, R174 to R177): the counts that reach their limit, and the order of the
notices. -/

namespace Sys2Proof.Machine

variable {s t w : State} {before after : List Entry} {e : Entry} {l : List Notice} {f : Frame} {rd : Reading}

/-! ### The drop by a line fault -/

/-- From s the station has gone to READY by a line fault, off the bus and with its line counts at 0, and notices were placed (R95, R175 to
R177). -/
structure State.lineDropped (s t : State) (l : List Notice) : Prop where
  ready : t.sc.state = .ready
  offBus : t.offBus
  lc : t.lc = { clearFaults s.lc with collisions := 0 }
  hp : t.hp = s.hp.noticed l

theorem State.lineDropped.line (h : s.lineDropped t l) :
    t.lc.state = s.lc.state ∧ t.lc.sending = s.lc.sending ∧ t.lc.txFaults = 0 ∧ t.lc.rxFaults = 0 ∧ t.lc.collisions = 0 := by
  rw [h.lc]
  exact ⟨rfl, rfl, rfl, rfl, rfl⟩

theorem dropState_parted {c : DropCause} (h : rejoinsAfter c = false) (s : State) : dropState c s = .ready := by
  simp [dropState, h]

/-- A drop without rejoining, after the owner of an entry has been told: REVOKED for each record, then the cause (R94, R95, R124). -/
theorem State.tellsOwner.dropped (h : s.tellsOwner w l) {c : DropCause} (hc : dropsIn c s.sc.state = true)
    (hparted : rejoinsAfter c = false) :
    s.lineDropped (drop c w) (l ++ revokedNotices s.au.replica.busSeq s.rt ++ [stationNoticeOf (dropNotice c)]) := by
  obtain ⟨hoff, hhp, hsc, hlc⟩ := drop_dropped w c (by rw [h.sc]; exact hc)
  refine ⟨?_, hoff, by rw [hlc, h.lc], ?_⟩
  · rw [hsc, dropState_parted hparted]
    rfl
  · rw [hhp, h.hp, h.au, h.revoked, HostPort.noticed_append, List.append_assoc]

/-! ### Transmit faults and collisions -/

theorem transmitCount_full (hv : voting s.sc.state = true) (h : 7 ≤ s.lc.txFaults) : s.transmitCount true = 8 := by
  simp only [State.transmitCount, hv, if_true]
  omega

theorem reportDuplicate_still {now : Bool} (h : voting t.sc.state = false) : reportDuplicate now t = t := by
  cases now with
  | false => rfl
  | true => exact (if_pos rfl).trans (if_neg (by simp [dropsIn, h]))

/-- The eighth transmit fault in a row, at an unconfirmed own start bit (R166, R177). -/
theorem unconfirmedStartBit_mutes (h : s.attempts before e after) (hv : voting s.sc.state = true) (hrecords : s.recordsBound)
    (hp : present s.sc.state = true ∨ s.rt = .empty) (henrol : e.content = .enrol → e.voids < 15) (hline : s.lc.state = .idle)
    (htx : 7 ≤ s.lc.txFaults) :
    ∃ t, exec .unconfirmedStartBit s = .next t ∧ (s.withLc s.unconfirmedLine).lineDropped t
      (s.voidNotices e ++ revokedNotices s.au.replica.busSeq s.rt ++ [stationNoticeOf .lineMute]) := by
  have hmute : mutes (s.withLc s.unconfirmedLine) = true := mutes_iff.mpr ⟨hv, .inr (transmitCount_full hv htx)⟩
  have htold := (h.onLine s.unconfirmedLine).tellsOwner rfl hv hrecords hp henrol
  refine ⟨_, exec_unconfirmedStartBit h hline, ?_⟩
  rw [hmute]
  exact htold.dropped hv rfl

/-- The eighth transmit fault in a row, at an own frame voided with a transmit mismatch (R174, R177). -/
theorem frameVoided_mutes (h : s.attempts before e after) (hv : voting s.sc.state = true) (hrecords : s.recordsBound)
    (hp : present s.sc.state = true ∨ s.rt = .empty) (henrol : e.content = .enrol → e.voids < 15) (hline : s.lc.state = .sending)
    (hsending : s.lc.sending = some f) (hmismatch : mistransmitIn (frameCells f) rd = true) (htx : 7 ≤ s.lc.txFaults) :
    ∃ t, exec (.frameVoided rd) s = .next t ∧ (s.withLc (s.voidedLine f rd)).lineDropped t
      (s.voidNotices e ++ revokedNotices s.au.replica.busSeq s.rt ++ [stationNoticeOf .lineMute]) := by
  have hcount : (s.voidedLine f rd).txFaults = 8 := by
    rw [State.voidedLine, hmismatch]
    exact transmitCount_full hv htx
  have hmute : mutes (s.withLc (s.voidedLine f rd)) = true := mutes_iff.mpr ⟨hv, .inr hcount⟩
  have hdropped := ((h.onLine (s.voidedLine f rd)).tellsOwner rfl hv hrecords hp henrol).dropped (c := .mute) hv rfl
  refine ⟨_, exec_frameVoided_sending h.outOfReset hline hsending rd, ?_⟩
  rw [hmute, reportDuplicate_still (by rw [reportMute, if_pos rfl, hdropped.ready]; rfl)]
  exact hdropped

/-- Short of an eighth transmit fault, the counts of an own frame mute only where the receive faults do (R177). -/
theorem voidedLine_unmuted (hfew : mistransmitIn (frameCells f) rd = true → s.lc.txFaults < 7)
    (hquiet : ¬ ({ s.lc with txFaults := 0 } : LineController).mute) (hv : voting s.sc.state = true) :
    ¬ (s.voidedLine f rd).mute := by
  rintro (hrx | htx)
  · exact hquiet (.inl hrx)
  · simp only [State.voidedLine, State.transmitCount, hv, if_true] at htx
    split at htx
    next hm =>
      have := hfew hm
      omega
    next => cases htx

theorem collidesFourth_third (hc : collisionIn (frameCells f) rd = true) (h : s.lc.collisions = 3) :
    collidesFourth (collisionIn (frameCells f) rd) s = true := by
  simp [collidesFourth, hc, h]

/-- A fourth collision in a row, where the station is not muted first (R175, R177). -/
theorem frameVoided_duplicate (h : s.attempts before e after) (hv : voting s.sc.state = true) (hrecords : s.recordsBound)
    (hp : present s.sc.state = true ∨ s.rt = .empty) (henrol : e.content = .enrol → e.voids < 15) (hline : s.lc.state = .sending)
    (hsending : s.lc.sending = some f) (hthird : s.lc.collisions = 3) (hc : collisionIn (frameCells f) rd = true)
    (hunmuted : ¬ (s.voidedLine f rd).mute) :
    ∃ t, exec (.frameVoided rd) s = .next t ∧ (s.withLc (s.voidedLine f rd)).lineDropped t
      (s.voidNotices e ++ revokedNotices s.au.replica.busSeq s.rt ++ [stationNoticeOf .duplicateStation]) := by
  have hmute : mutes (s.withLc (s.voidedLine f rd)) = false := mutes_false fun _ => hunmuted
  have htold := (h.onLine (s.voidedLine f rd)).tellsOwner rfl hv hrecords hp henrol
  refine ⟨_, exec_frameVoided_sending h.outOfReset hline hsending rd, ?_⟩
  rw [hmute, collidesFourth_third hc hthird]
  exact htold.dropped hv rfl

theorem clearFaults_uncollided {x : LineController} (h : x.collisions = 0) :
    { clearFaults x with collisions := 0 } = clearFaults x := by
  simp [clearFaults, h]

/-- An ENROL at its sixteenth void gives up the join, and the station that has gone is not dropped again (R90, R175; log entry 11). -/
theorem frameVoided_enrolGivesUp (h : s.attempts before e after) (hcontent : e.content = .enrol) (hd : e.discard = false)
    (hvoids : 15 ≤ e.voids) (hs : s.sc.state = .enrolling) (hline : s.lc.state = .sending) (hsending : s.lc.sending = some f)
    (hthird : s.lc.collisions = 3) (hc : collisionIn (frameCells f) rd = true) :
    ∃ t, exec (.frameVoided rd) s = .next t ∧ (s.withLc (s.voidedLine f rd)).lineDropped t [stationNoticeOf .joinFailed] := by
  have hjoin := joinAbandoned_givesUp (s := (s.withLc (s.voidedLine f rd)).withEntries (before ++ after))
    (.inr (.inr ⟨hcontent, hs⟩))
  obtain ⟨hr, ha, hgive, hvoting⟩ := hjoin
  have hlast : e.abandoned true = true := by simp [Entry.abandoned, ha, hvoids]
  have hend : returnAttempt true (s.withLc (s.voidedLine f rd))
      = giveUpJoin .joinFailed none ((s.withLc (s.voidedLine f rd)).withEntries (before ++ after)) := by
    rw [(h.onLine (s.voidedLine f rd)).returnAttempt rfl, ← hgive]
    simp only [hd, hr, hlast, Bool.false_eq_true, and_false, if_false, if_true]
  have hg := giveUpJoin_ready .joinFailed ((s.withLc (s.voidedLine f rd)).withEntries (before ++ after))
  rw [← hend] at hg
  have hgone : voting (returnAttempt true (s.withLc (s.voidedLine f rd))).sc.state = false := by rw [hg.sc]; rfl
  have hv := hvoting.mpr hs
  refine ⟨_, exec_frameVoided_sending h.outOfReset hline hsending rd, ?_⟩
  rw [reportMute_still fun _ => hgone, reportDuplicate_still hgone]
  refine ⟨by rw [hg.sc]; rfl, ⟨hg.au, hg.rt, hg.pm, hg.tc, hg.gl, fun x hx => ?_⟩, ?_, hg.hp⟩
  · rw [hg.oq, if_pos hv, purgeAll_queued h.othersQueued] at hx
    cases hx
  · have hcount : (s.voidedLine f rd).collisions = 0 := by simp [State.voidedLine, hc, hthird]
    rw [hg.lc, if_pos hv]
    exact (clearFaults_uncollided hcount).symm

/-! ### Receive faults -/

/-- Two fault senders, the unknown one counting as one, are enough for the mute (R176, R177). -/
theorem faulted_mute {x y : LineController} {m a b : Option Station} (h : x.faulted m y) (hrx : 7 ≤ x.rxFaults) (hab : a ≠ b)
    (ha : x.faultedBy m a) (hb : x.faultedBy m b) : y.mute := by
  obtain ⟨hcount, hsenders, hunknown⟩ := h
  refine .inl ⟨by omega, ?_⟩
  have hone : ∀ k : Station, x.faultedBy m (some k) → 1 ≤ countOf y.faultSenders := fun k hk =>
    List.length_pos_of_mem ((mem_stationsOf _ k).mpr ((hsenders k).mpr hk))
  match a, b with
  | none, none => exact absurd rfl hab
  | some j, none =>
    have := hone j ha
    rw [if_pos (hunknown.mpr hb)]
    omega
  | none, some k =>
    have := hone k hb
    rw [if_pos (hunknown.mpr ha)]
    omega
  | some j, some k =>
    have := (two_le_countOf _).mpr ⟨j, k, fun hjk => hab (congrArg some hjk), (hsenders j).mpr ha, (hsenders k).mpr hb⟩
    omega

/-- What a receive fault counts, a drop clears (R176). -/
theorem countFault_cleared (m : Option Station) (s : State) : clearFaults (countFault m s).lc = clearFaults s.lc := by
  unfold countFault
  (repeat' split) <;> rfl

/-- The eighth receive fault in a row, or a later one, from two senders: the mute, reported at once (R176, R177). -/
theorem countFault_mutes {m a b : Option Station} (hv : voting s.sc.state = true) (hrx : 7 ≤ s.lc.rxFaults) (hab : a ≠ b)
    (ha : s.lc.faultedBy m a) (hb : s.lc.faultedBy m b) :
    s.lineDropped (reportMute (mutes (countFault m s)) (countFault m s))
      (revokedNotices s.au.replica.busSeq s.rt ++ [stationNoticeOf .lineMute]) := by
  obtain ⟨hall, -, -, -, -, hfaulted, -⟩ := countFault_faulted m s
  have hmute : mutes (countFault m s) = true :=
    mutes_iff.mpr ⟨by simpa using hv, faulted_mute (hfaulted hv) hrx hab ha hb⟩
  have htold : (s.withLc (countFault m s).lc).tellsOwner (countFault m s) [] :=
    .silent (by simp) (by simp) rfl (by simp) (by simp)
  have hdropped := htold.dropped (c := .mute) hv rfl
  rw [hmute]
  exact ⟨hdropped.ready, hdropped.offBus, by rw [← countFault_cleared m s]; exact hdropped.lc, hdropped.hp⟩

/-- A frame lost at its length cell is a receive fault, counted to the sender in its arbitration cell (R169, R176). -/
theorem exec_frameLost {arb kind length : Cell} (hin : s.inReset = false) (hline : s.lc.state = .receiving)
    (hlost : turnHolds length = false ∨ length.data.toNat > 50) :
    exec (.frameLost [arb, kind, length]) s = .next
      (reportMute
        (mutes (countFault (faultSender arb) (keepRead [arb, kind, length] (s.withLc { s.lc with state := .seeking, recessive := 0 }))))
        (countFault (faultSender arb) (keepRead [arb, kind, length] (s.withLc { s.lc with state := .seeking, recessive := 0 })))) := by
  have hlength : lengthHolds length = false := by
    rw [lengthHolds, Bool.and_eq_false_iff, decide_eq_false_iff_not, Nat.not_le]
    exact hlost
  simp only [exec, execFrameLost, hin, hline, and_self, if_true, receive, hlength, Bool.false_eq_true, if_false]

/-! ### The obligation -/

/-- Settles O23: each fault by the count that it brings to its limit; the ENROL at its sixteenth void gives up before it is dropped. -/
theorem lineFaultsDrop : Obligations.LineFaultsDrop := by
  intro s hin hv hrecords hp
  refine ⟨fun before e after h henrol => ⟨fun hline htx => ?_, fun f rd hline hsending hmismatch htx => ?_,
    fun f rd hline hsending hthird hc hfew hquiet => ?_⟩,
    fun before e after f rd h hcontent hd hvoids hs hline hsending hthird hc => ?_,
    fun arb kind length a b hline hrx hlost hab ha hb => ?_, fun rd m a b hline hrx hm hab ha hb => ?_⟩
  · obtain ⟨t, hexec, ht⟩ := unconfirmedStartBit_mutes h hv hrecords hp henrol hline htx
    obtain ⟨tline, tsending, ttx, trx, tcollisions⟩ := ht.line
    exact ⟨t, hexec, ht.ready, ht.offBus, tline.trans hline, tsending, ttx, trx, tcollisions, ht.hp⟩
  · obtain ⟨t, hexec, ht⟩ := frameVoided_mutes h hv hrecords hp henrol hline hsending hmismatch htx
    obtain ⟨tline, tsending, ttx, trx, tcollisions⟩ := ht.line
    exact ⟨t, hexec, ht.ready, ht.offBus, tline, tsending, ttx, trx, tcollisions, ht.hp⟩
  · obtain ⟨t, hexec, ht⟩ := frameVoided_duplicate h hv hrecords hp henrol hline hsending hthird hc
      (voidedLine_unmuted hfew hquiet hv)
    obtain ⟨tline, tsending, ttx, trx, tcollisions⟩ := ht.line
    exact ⟨t, hexec, ht.ready, ht.offBus, tline, tsending, ttx, trx, tcollisions, ht.hp⟩
  · obtain ⟨t, hexec, ht⟩ := frameVoided_enrolGivesUp h hcontent hd hvoids hs hline hsending hthird hc
    obtain ⟨tline, tsending, ttx, trx, tcollisions⟩ := ht.line
    exact ⟨t, hexec, ht.ready, ht.offBus, tline, tsending, ttx, trx, tcollisions, ht.hp⟩
  · have ht := countFault_mutes (s := keepRead [arb, kind, length] (s.withLc { s.lc with state := .seeking, recessive := 0 }))
      hv hrx hab ha hb
    obtain ⟨tline, -, ttx, trx, tcollisions⟩ := ht.line
    exact ⟨_, exec_frameLost hin hline hlost, ht.ready, ht.offBus, trx, tline, ttx, tcollisions, ht.hp⟩
  · have ht := countFault_mutes (s := setLine .closing (keepRead rd.cells s)) hv hrx hab ha hb
    obtain ⟨tline, -, ttx, trx, tcollisions⟩ := ht.line
    exact ⟨_, (exec_frameVoided_receiving hin hline rd).trans (by rw [hm]; rfl), ht.ready, ht.offBus, trx, tline, ttx, tcollisions,
      ht.hp⟩

end Sys2Proof.Machine
end

section
/-! PROOFS. The agreement of the hold records with the claim table (R105) is not kept by every step: a safe state may have a hard reset in
progress at a MEMBER, and its end samples another station number. -/

namespace Sys2Proof.Machine

/-- A configuration record with every binding empty. -/
def bareConfig : ConfigRecord :=
  { period := .ms10, quorum := 1, guardTime := 0, autoRejoin := false, grants := Vector.replicate 8 none,
    requests := Vector.replicate 4 none, limits := Vector.replicate 4 0 }

/-- Station 0, a MEMBER alone on the bus, with a hard reset in progress, which no law of Safety excludes. The reset ends next, and the straps
then read station 1. -/
def renumberedState : State :=
  { State.reset with
    inReset := true
    sc := { StationController.reset with state := .member, config := some bareConfig }
    au := { ApplyUnit.cleared with replica := { Replica.cleared with roster := addStation noStations 0 } }
    pending := [.hardResetEnd 1 0] }

theorem renumberedState_safe : renumberedState.safe = true := by
  have htable : renumberedState.tableLawful = true := State.tableLawful_cleared rfl
  have htransfer : renumberedState.transferLawful = true := by decide
  have hholds : renumberedState.holdsLawful = true := reset_holdsLawful
  have hstate : renumberedState.stateLawful = true := by decide
  have hcollection : renumberedState.collectionLawful = true := by decide
  have hattempt : renumberedState.attemptLawful = true := by decide
  have hguards : renumberedState.guardsLawful = true := by decide
  have hcounts : renumberedState.countsLawful = true := by decide
  have hqueue : renumberedState.queueLawful = true := by decide
  have hagree : renumberedState.holdsAgree = true := by decide
  simp only [State.safe, htable, htransfer, hholds, hstate, hcollection, hattempt, hguards, hcounts, hqueue, hagree, Bool.and_self]

/-- The front command is no frame. -/
theorem renumberedState_numberAlone : renumberedState.numberAlone := by
  rintro c rest rd f hq ⟨k, rfl⟩
  cases k <;> cases hq

/-- The end of the reset leaves a MEMBER that is not in its own roster. -/
theorem renumberedState_step :
    step renumberedState = .next (startedByReset 1 0 { renumberedState with pending := [] }) := rfl

/-- Refutes O59: the end of a hard reset at a MEMBER. Its station number becomes that of the straps (R209), while the roster still names the
old one; nothing in State.safe says that the blocks are clear during a hard reset. -/
theorem not_holdsAgreeKept : ¬ Obligations.HoldsAgreeKept := by
  intro h
  have hagree := h renumberedState _ renumberedState_safe renumberedState_numberAlone renumberedState_step
  exact absurd hagree (by decide)

end Sys2Proof.Machine
end

section
/-! PROOFS. The law of the hold list (R102, R104) and the binding of the records of pin origin (R106, R107): what an operation does to the hold
list keeps both, and operations follow one another. -/

namespace Sys2Proof.Machine

variable {s t u : State} {l : Lock} {r : HoldRecord}

/-! ### The law, and changes that keep it -/

/-- State.holdsLawful as a statement: records stand in their tiers, and a pending record is above every other (R102, R104). -/
def State.HoldsLaw (s : State) : Prop :=
  ∀ (i : Tier) r, s.rt.slots[i] = some r →
    tierOf r.lock = i ∧ (isPending r = true → ∀ (j : Tier) x, s.rt.slots[j] = some x → j ≤ i)

theorem State.holdsLawful_iff (s : State) : s.holdsLawful = true ↔ s.HoldsLaw := by
  simp only [holdsLawful, List.all_eq_true, List.mem_finRange, true_implies]
  refine forall_congr' fun i => ?_
  cases s.rt.slots[i] with
  | none => simp
  | some r =>
    have hbelow (j : Tier) : (s.rt.slots[j].isNone || decide (j ≤ i)) = true ↔ ∀ x, s.rt.slots[j] = some x → j ≤ i := by
      cases s.rt.slots[j] <;> simp
    have hpending : (!isPending r || (List.finRange 8).all fun j => s.rt.slots[j].isNone || decide (j ≤ i)) = true ↔
        (isPending r = true → ∀ (j : Tier) x, s.rt.slots[j] = some x → j ≤ i) := by
      simp only [Bool.or_eq_true, Bool.not_eq_true', List.all_eq_true, List.mem_finRange, true_implies, hbelow]
      cases isPending r <;> simp
    simp only [Bool.and_eq_true, beq_iff_eq, hpending, Option.some.injEq, forall_eq']

/-- A record that stands for another one: of the same lock and origin, and pending only if that one is. -/
structure HoldRecord.Follows (x r : HoldRecord) : Prop where
  lock : x.lock = r.lock
  origin : x.origin = r.origin
  pending : isPending x = true → isPending r = true

/-- The law of the hold list and the binding of its pin records are kept. -/
structure State.KeepsHolds (s t : State) : Prop where
  law : s.HoldsLaw → t.HoldsLaw
  bound : s.recordsBound → t.recordsBound

namespace State.KeepsHolds

theorem refl (s : State) : s.KeepsHolds s := ⟨id, id⟩

theorem trans (h1 : s.KeepsHolds t) (h2 : t.KeepsHolds u) : s.KeepsHolds u := ⟨h2.law ∘ h1.law, h2.bound ∘ h1.bound⟩

end State.KeepsHolds

theorem State.bound_of_config (hconfig : t.sc.config = s.sc.config) {x : HoldRecord} (hlock : x.lock = r.lock)
    (horigin : x.origin = r.origin) (h : s.bound r) : t.bound x := by
  simpa only [State.bound, hlock, horigin, requestBinding_congr hconfig] using h

namespace State.KeepsHolds

/-- Records go or are replaced by records that follow them. -/
theorem of_follows (hconfig : t.sc.config = s.sc.config)
    (h : ∀ (i : Tier) x, t.rt.slots[i] = some x → ∃ r, s.rt.slots[i] = some r ∧ x.Follows r) : s.KeepsHolds t where
  law hs i x hx := by
    obtain ⟨r, hr, hf⟩ := h i x hx
    obtain ⟨htier, habove⟩ := hs i r hr
    refine ⟨by rw [hf.lock, htier], fun hp j y hy => ?_⟩
    obtain ⟨z, hz, -⟩ := h j y hy
    exact habove (hf.pending hp) j z hz
  bound hs i x hx := by
    obtain ⟨r, hr, hf⟩ := h i x hx
    exact bound_of_config hconfig hf.lock hf.origin (hs i r hr)

theorem of_eq (hrt : t.rt = s.rt) (hconfig : t.sc.config = s.sc.config) : s.KeepsHolds t :=
  of_follows hconfig fun _ x hx => ⟨x, by rwa [hrt] at hx, rfl, rfl, id⟩

theorem of_empty (hrt : t.rt = .empty) : s.KeepsHolds t := by
  have hnone : ∀ (i : Tier) x, t.rt.slots[i] ≠ some x := by simp [hrt, RequestTracker.empty]
  exact ⟨fun _ i x hx => absurd hx (hnone i x), fun _ i x hx => absurd hx (hnone i x)⟩

/-- One slot changes: it empties, or a record follows the one it holds. -/
theorem of_slot {i : Tier} {y : Option HoldRecord} (hslots : t.rt.slots = putAt s.rt.slots i y)
    (hconfig : t.sc.config = s.sc.config) (hy : ∀ x, y = some x → ∃ r, s.rt.slots[i] = some r ∧ x.Follows r) : s.KeepsHolds t := by
  refine of_follows hconfig fun j x hx => ?_
  rw [hslots, putAt_get] at hx
  split at hx
  next hij => exact hij ▸ hy x hx
  next => exact ⟨x, hx, rfl, rfl, id⟩

theorem emptied {i : Tier} (hslots : t.rt.slots = putAt s.rt.slots i none) (hconfig : t.sc.config = s.sc.config) :
    s.KeepsHolds t := of_slot hslots hconfig fun _ h => by cases h

/-- The record of a lock is replaced by one that follows it. -/
theorem replaced (hr : recordFor s l = some r) {x : HoldRecord} (hslots : t.rt.slots = putAt s.rt.slots (tierOf l) (some x))
    (hconfig : t.sc.config = s.sc.config) (hx : x.Follows r) : s.KeepsHolds t :=
  of_slot hslots hconfig fun _ h => ⟨r, (recordFor_some.mp hr).1, Option.some.inj h ▸ hx⟩

/-- A claim above every record, with none pending (R104, R106). -/
theorem claimed (hslots : t.rt.slots = putAt s.rt.slots (tierOf r.lock) (some r)) (hconfig : t.sc.config = s.sc.config)
    (habove : aboveOccupied s r.lock = true) (hnone : anyPending s = false) (hb : s.bound r) : s.KeepsHolds t := by
  rw [aboveOccupied_iff] at habove
  rw [anyPending_false] at hnone
  constructor
  · intro hs i x hx
    have hle : ∀ (j : Tier) y, t.rt.slots[j] = some y → j ≤ tierOf r.lock := by
      intro j y hy
      rw [hslots, putAt_get] at hy
      split at hy
      next hj => exact hj ▸ le_refl _
      next => exact le_of_lt (habove j y hy)
    rw [hslots, putAt_get] at hx
    split at hx
    next hi =>
      cases hx
      exact ⟨hi, fun _ j y hy => hi ▸ hle j y hy⟩
    next =>
      refine ⟨(hs i x hx).1, fun hp => ?_⟩
      rw [hnone i x hx] at hp
      cases hp
  · intro hs i x hx
    rw [hslots, putAt_get] at hx
    split at hx
    · cases hx
      exact bound_of_config hconfig rfl rfl hb
    · exact bound_of_config hconfig rfl rfl (hs i x hx)

/-- What comes after leaves the hold list and the configuration record. -/
theorem keep (h : s.KeepsHolds t) (hrt : u.rt = t.rt) (hconfig : u.sc.config = t.sc.config) : s.KeepsHolds u :=
  h.trans (of_eq hrt hconfig)

/-- What came before left the hold list and the configuration record. -/
theorem after (h : t.KeepsHolds u) (hrt : t.rt = s.rt) (hconfig : t.sc.config = s.sc.config) : s.KeepsHolds u :=
  (of_eq hrt hconfig).trans h

end State.KeepsHolds

/-! ### The Request Tracker -/

theorem placeClaim_keepsHolds {o : Origin} (m : Mode) (limit : Byte) (habove : aboveOccupied s l = true)
    (hnone : anyPending s = false) (hb : ∀ p, o = .req p → requestBinding s p = some l) :
    s.KeepsHolds (placeClaim o l m limit s) :=
  .claimed (r := { lock := l, origin := o, state := .claiming, holdLimit := limit, generation := none, withdrawAsked := false,
                   holdTimer := none, deferred := none })
    (by simp [placeClaim, setSlot]) (by simp) habove hnone (by
      cases o with
      | host => exact .inl rfl
      | req p => exact .inr ⟨p, rfl, hb p rfl⟩)

theorem yieldRecord_slot (why : Reason) (r : HoldRecord) (s : State) :
    ∃ x : HoldRecord, (yieldRecord why r s).rt.slots = putAt s.rt.slots (tierOf r.lock) (some x) ∧ x.Follows r := by
  unfold yieldRecord
  dsimp only
  split
  · exact ⟨_, rfl, rfl, rfl, fun h => by cases h⟩
  · exact ⟨_, rfl, rfl, rfl, fun h => by cases h⟩

theorem yieldRecord_keepsHolds (why : Reason) (hr : recordFor s l = some r) : s.KeepsHolds (yieldRecord why r s) := by
  obtain ⟨x, hslots, hx⟩ := yieldRecord_slot why r s
  rw [(recordFor_some.mp hr).2] at hslots
  exact .replaced hr hslots (by simp) hx

theorem withdrawRecord_keepsHolds (hr : recordFor s l = some r) : s.KeepsHolds (withdrawRecord r s) := by
  obtain rfl := (recordFor_some.mp hr).2
  unfold withdrawRecord
  split
  next hstate =>
    split
    · exact .replaced hr rfl rfl ⟨rfl, rfl, fun _ => by simp [isPending, hstate]⟩
    · exact .emptied (i := tierOf r.lock) (by simp [setSlot]) (by simp)
  next hstate => exact .replaced hr rfl rfl ⟨rfl, rfl, fun _ => by simp [isPending, hstate]⟩
  next => exact .refl s

theorem pinClaim_keepsHolds {p : Pin} (hbind : requestBinding s p = some l) : s.KeepsHolds (pinClaim p l s) := by
  unfold pinClaim
  split
  next hopen =>
    simp only [Bool.and_eq_true, Bool.not_eq_true'] at hopen
    exact placeClaim_keepsHolds _ _ hopen.1 hopen.2 fun k hk => by cases hk; exact hbind
  next => exact .of_eq (by simp) (by simp)

theorem evaluatePin_keepsHolds (p : Pin) (s : State) : s.KeepsHolds (evaluatePin p s) := by
  unfold evaluatePin
  (repeat' split) <;> try exact .refl s
  next hbind _ _ _ _ => exact pinClaim_keepsHolds hbind
  next hr _ _ => exact yieldRecord_keepsHolds _ hr
  next hr _ _ => exact withdrawRecord_keepsHolds hr

theorem evaluateOrigin_keepsHolds (o : Origin) (s : State) : s.KeepsHolds (evaluateOrigin o s) := by
  cases o with
  | host => exact .refl s
  | req p => exact evaluatePin_keepsHolds p s

theorem enterHeld_keepsHolds (hr : recordFor s l = some r) (k : NoticeKind) (mark : Bool) (g : Generation) :
    s.KeepsHolds (enterHeld k mark g r s) := by
  obtain rfl := (recordFor_some.mp hr).2
  have hheld : s.KeepsHolds (setSlot (tierOf r.lock) (some
      { r with state := .held, generation := some g, withdrawAsked := mark,
               holdTimer := if r.holdLimit ≠ 0 ∧ s.sc.state = .member then some 0 else none }) (cancelRequest (tierOf r.lock) s)) :=
    .replaced hr rfl rfl ⟨rfl, rfl, fun h => by cases h⟩
  exact (hheld.keep (by simp) (by simp)).trans (evaluateOrigin_keepsHolds _ _)

theorem emptySlot_keepsHolds (n : Option (NoticeKind × Option Generation × Qualifier)) (r : HoldRecord) (s : State) :
    s.KeepsHolds (emptySlot n r s) := by
  refine State.KeepsHolds.trans ?_ (evaluateOrigin_keepsHolds _ _)
  refine .emptied (i := tierOf r.lock) ?_ ?_ <;> cases n <;> simp [setSlot]

theorem enterWaiting_keepsHolds (hr : recordFor s l = some r) (hstate : r.state = .claiming) (g : Generation) :
    s.KeepsHolds (enterWaiting g r s) := by
  obtain rfl := (recordFor_some.mp hr).2
  have hwaiting : s.KeepsHolds
      (setSlot (tierOf r.lock) (some { r with state := .waiting }) (cancelRequest (tierOf r.lock) s)) :=
    .replaced hr rfl rfl ⟨rfl, rfl, fun _ => by simp [isPending, hstate]⟩
  exact (hwaiting.keep (by simp) (by simp)).trans (evaluateOrigin_keepsHolds _ _)

theorem enterWithdrawing_keepsHolds (hr : recordFor s l = some r) (hstate : r.state = .claimCancel) :
    s.KeepsHolds (enterWithdrawing r s) := by
  obtain rfl := (recordFor_some.mp hr).2
  unfold enterWithdrawing
  split
  · exact .replaced hr rfl rfl ⟨rfl, rfl, fun _ => by simp [isPending, hstate]⟩
  · exact .replaced hr rfl rfl ⟨rfl, rfl, fun _ => by simp [isPending, hstate]⟩

theorem withdrawLeft_keepsHolds (hr : recordFor s l = some r) : s.KeepsHolds (withdrawLeft r s) := by
  obtain rfl := (recordFor_some.mp hr).2
  exact .replaced hr withdrawLeft_taken.1 (by simp) ⟨rfl, rfl, id⟩

theorem takeGrant_keepsHolds (hr : recordFor s l = some r) (g : Generation) : s.KeepsHolds (takeGrant g r s) := by
  unfold takeGrant
  split
  case h_5 => exact .refl s
  all_goals exact enterHeld_keepsHolds hr _ _ _

theorem takeOutcome_keepsHolds (o : LockOutcome) (s : State) : s.KeepsHolds (takeOutcome o s) := by
  cases hr : recordFor s o.lock with
  | none => simpa only [takeOutcome, hr] using State.KeepsHolds.refl s
  | some r =>
    simp only [takeOutcome, hr]
    split
    case h_1 => exact takeGrant_keepsHolds hr _
    case h_2 hstate | h_10 hstate => exact enterWaiting_keepsHolds hr hstate _
    case h_3 hstate | h_11 hstate => exact enterWithdrawing_keepsHolds hr hstate
    case h_6 => exact .after (emptySlot_keepsHolds _ r _) (by simp) (by simp)
    case h_8 | h_9 => exact enterHeld_keepsHolds hr _ _ _
    case h_14 | h_15 =>
      split
      · exact withdrawLeft_keepsHolds hr
      · exact .refl s
    case h_16 => split <;> exact emptySlot_keepsHolds _ r s
    case h_18 => exact .refl s
    all_goals exact emptySlot_keepsHolds _ r s

theorem takeOutcomes_keepsHolds (outcomes : List LockOutcome) (s : State) : s.KeepsHolds (takeOutcomes outcomes s) := by
  unfold takeOutcomes
  generalize outcomes.filter (fun o => o.subject == s.station) = m
  induction m generalizing s with
  | nil => exact .refl s
  | cons o m ih => exact (takeOutcome_keepsHolds o s).trans (ih _)

theorem requestReturned_keepsHolds (abandoned : Bool) (n : Nat) (c : Content) (s : State) :
    s.KeepsHolds (requestReturned abandoned n c s) := by
  unfold requestReturned
  (repeat' split) <;> try exact .of_eq (by simp) (by simp)
  · exact .after (emptySlot_keepsHolds _ _ _) (by simp) (by simp)
  · exact .after (emptySlot_keepsHolds _ _ _) (by simp) (by simp)
  next hr _ _ => exact .after (withdrawLeft_keepsHolds ((recordFor_congr (by simp) _).trans hr)) (by simp) (by simp)
  next hr _ _ => exact .after (withdrawLeft_keepsHolds ((recordFor_congr (by simp) _).trans hr)) (by simp) (by simp)

theorem dropRequest_keepsHolds (o : Owner) (s : State) : s.KeepsHolds (dropRequest o s) := by
  unfold dropRequest
  (repeat' split) <;> try exact .refl s
  next hr => exact .of_slot rfl rfl fun x hx => ⟨_, hr, by cases hx; exact ⟨rfl, rfl, id⟩⟩

/-! ### The Station Controller -/

theorem enterState_keepsHolds (x : StationState) (s : State) : s.KeepsHolds (enterState x s) := by
  cases hp : present x
  · exact .of_empty (by simp [enterState_rt, hp])
  · exact .of_eq (by simp [enterState_rt, hp]) (by simp [enterState_sc, StationController.inState])

theorem drop_keepsHolds (c : DropCause) (s : State) : s.KeepsHolds (drop c s) := by
  cases h : dropsIn c s.sc.state
  · simpa [drop, h] using State.KeepsHolds.refl s
  · exact .of_empty (drop_dropped s c h).1.2.1

theorem examinePins_keepsHolds (s : State) : s.KeepsHolds (examinePins s) := by
  have hpins (ps : List Pin) (w : State) : w.KeepsHolds (ps.foldl (fun t p => evaluatePin p t) w) := by
    induction ps generalizing w with
    | nil => exact .refl w
    | cons p ps ih => exact (evaluatePin_keepsHolds p w).trans (ih _)
  exact .after (hpins _ _) rfl rfl

theorem enterMember_keepsHolds (k : NoticeKind) (s : State) : s.KeepsHolds (enterMember k s) :=
  .after (examinePins_keepsHolds _) (by simp) (by simp)

theorem found_keepsHolds (s : State) : s.KeepsHolds (found s) :=
  ((enterState_keepsHolds .member s).keep (by simp) (by simp)).trans (enterMember_keepsHolds _ _)

theorem ask_keepsHolds (s : State) : s.KeepsHolds (ask s) := (enterState_keepsHolds .asking s).keep (by simp [ask]) (by simp [ask])

theorem giveUpJoin_keepsHolds (k : NoticeKind) (m : Option Station) (s : State) : s.KeepsHolds (giveUpJoin k m s) :=
  (enterState_keepsHolds .ready s).keep (by simp [giveUpJoin]) (by simp [giveUpJoin])

theorem otherFound_keepsHolds (f : Frame) (s : State) : s.KeepsHolds (otherFound f s) := by
  unfold otherFound
  split
  · exact ask_keepsHolds s
  · exact giveUpJoin_keepsHolds _ _ s

theorem enterCollecting_keepsHolds (q : BusSeq) (page : PageZero) (s : State) : s.KeepsHolds (enterCollecting q page s) :=
  (enterState_keepsHolds .collecting s).keep (by simp [enterCollecting]) (by simp [enterCollecting])

theorem observePageZero_keepsHolds (f : Frame) (s : State) : s.KeepsHolds (observePageZero f s) := by
  unfold observePageZero
  (repeat' split) <;> try exact .of_eq rfl rfl
  exact enterCollecting_keepsHolds _ _ s

theorem observe_keepsHolds (own : Bool) (f : Frame) (s : State) : s.KeepsHolds (observe own f s) := by
  unfold observe
  (repeat' split) <;> try exact .refl s
  · exact otherFound_keepsHolds f s
  · exact ask_keepsHolds s
  · exact found_keepsHolds s
  · exact .after (otherFound_keepsHolds f _) (by simp) (by simp)
  · exact enterState_keepsHolds _ s
  · exact observePageZero_keepsHolds f s

theorem joinAbandoned_keepsHolds (c : Content) (s : State) : s.KeepsHolds (joinAbandoned c s) := by
  unfold joinAbandoned
  split <;> try exact giveUpJoin_keepsHolds _ _ s
  exact .refl s

theorem roundOut_keepsHolds (s : State) : s.KeepsHolds (roundOut s) := by
  unfold roundOut
  dsimp only
  split
  · exact .after (enterState_keepsHolds _ _) rfl rfl
  · exact .after (giveUpJoin_keepsHolds _ _ _) rfl rfl

/-! ### The reactions to a report -/

theorem ownDepart_keepsHolds (rep : Report) (s : State) : s.KeepsHolds (ownDepart rep s) := by
  unfold ownDepart
  (repeat' split) <;> try exact .refl s
  · exact (enterState_keepsHolds .ready s).keep (by simp) (by simp)
  · exact .of_eq (by simp) (by rw [(staleDepartLeft_effect s).1])

theorem ownEnrol_keepsHolds (rep : Report) (s : State) : s.KeepsHolds (ownEnrol rep s) := by
  unfold ownEnrol
  (repeat' split) <;> try exact .refl s
  · exact (enterState_keepsHolds .member s).trans (enterMember_keepsHolds _ _)
  · exact .of_eq (by simp) (by simp)

theorem roundBroken_keepsHolds (rep : Report) (s : State) : s.KeepsHolds (roundBroken rep s) := by
  unfold roundBroken
  (repeat' split) <;> try exact .refl s
  all_goals exact enterState_keepsHolds _ s

theorem collectionDone_keepsHolds (s : State) : s.KeepsHolds (collectionDone s) := by
  unfold collectionDone
  split
  · exact (enterState_keepsHolds .enrolling s).keep (by simp) (by simp)
  · exact .refl s

theorem stationReport_keepsHolds (rep : Report) (s : State) : s.KeepsHolds (stationReport rep s) := by
  have hreport := (((ownDepart_keepsHolds rep s).trans (ownEnrol_keepsHolds rep _)).trans
    (roundBroken_keepsHolds rep _)).trans (collectionDone_keepsHolds _)
  unfold stationReport
  dsimp only
  split
  · exact hreport.trans (drop_keepsHolds _ _)
  · exact hreport

theorem departHolds_keepsHolds (rep : Report) (s : State) : s.KeepsHolds (departHolds rep s) := by
  unfold departHolds
  split
  · exact .of_empty rfl
  · exact .refl s

theorem presenceReactions_keepsHolds (rep : Report) (s : State) : s.KeepsHolds (presenceReactions rep s) := by
  have hreport : s.KeepsHolds (presenceReport rep s) := .of_eq (by simp) (by simp)
  have hdrop : s.KeepsHolds (if ousts rep s then drop .ouster (presenceReport rep s) else presenceReport rep s) := by
    split
    · exact hreport.trans (drop_keepsHolds _ _)
    · exact hreport
  unfold presenceReactions
  split
  · refine hdrop.keep ?_ ?_ <;> (dsimp only; split <;> simp)
  · exact .refl s

theorem handOn_keepsHolds (rep : Report) (s : State) : s.KeepsHolds (handOn rep s) := by
  unfold handOn
  split
  · have hreport := (((takeOutcomes_keepsHolds rep.outcomes s).trans (departHolds_keepsHolds rep _)).trans
      (presenceReactions_keepsHolds rep _)).trans (stationReport_keepsHolds rep _)
    refine hreport.keep ?_ ?_ <;> (simp only [reactApplied]; split <;> simp)
  · have hown : s.KeepsHolds (if rep.own ∧ rep.kind = .evict then decideEviction s else s) := by
      split
      · exact .of_eq (by simp) (by simp)
      · exact .refl s
    exact (hown.trans (stationReport_keepsHolds rep _)).keep (by simp [reactOther]) (by simp [reactOther])

/-! ### The line -/

theorem acceptFrame_keepsHolds (own : Bool) (f : Frame) (s : State) : s.KeepsHolds (acceptFrame own f s) := by
  unfold acceptFrame
  dsimp only
  split
  · refine .after (handOn_keepsHolds _ _) ?_ ?_ <;> (split <;> simp)
  · refine .after (observe_keepsHolds own f _) ?_ ?_ <;> (split <;> simp)

theorem reportMute_keepsHolds (now : Bool) (s : State) : s.KeepsHolds (reportMute now s) := by
  unfold reportMute
  split
  · exact drop_keepsHolds _ s
  · exact .refl s

theorem reportDuplicate_keepsHolds (now : Bool) (s : State) : s.KeepsHolds (reportDuplicate now s) := by
  unfold reportDuplicate
  split
  · exact drop_keepsHolds _ s
  · exact .refl s

theorem returnAttempt_keepsHolds (voided : Bool) (s : State) : s.KeepsHolds (returnAttempt voided s) := by
  have hends := returnAttempt_ends voided s
  generalize hw : s.withLc { s.lc with sending := none } = w at hends
  refine .after (t := w) ?_ (by rw [← hw]; rfl) (by rw [← hw]; rfl)
  generalize returnAttempt voided s = t at hends ⊢
  cases hends with
  | none => exact .refl _
  | removed => exact .of_eq rfl rfl
  | dropped o => exact .after (dropRequest_keepsHolds o _) rfl rfl
  | request b n c => exact requestReturned_keepsHolds b n c _
  | abandoned c => exact .after (joinAbandoned_keepsHolds c _) rfl rfl
  | returned n => exact .of_eq rfl rfl

theorem voidOwn_keepsHolds (f : Frame) (rd : Reading) (s : State) : s.KeepsHolds (voidOwn f rd s) :=
  ((State.KeepsHolds.after (returnAttempt_keepsHolds true _) (by simp) (by simp)).trans (reportMute_keepsHolds _ _)).trans
    (reportDuplicate_keepsHolds _ _)

theorem endReceived_keepsHolds (x : Received) (rd : Reading) (s : State) : s.KeepsHolds (endReceived x rd s) := by
  unfold endReceived
  split
  · exact .refl s
  · exact .after (reportMute_keepsHolds _ _) (by simp) (by simp)
  · exact .of_eq (by simp) (by simp)

theorem acceptedFrame_keepsHolds (k : Kind) (rd : Reading) (s : State) : s.KeepsHolds (acceptedFrame k rd s) := by
  unfold acceptedFrame
  (repeat' split) <;> try exact .refl s
  · exact .after (acceptFrame_keepsHolds true _ _) (by simp) (by simp)
  · exact (endReceived_keepsHolds _ rd s).trans (acceptFrame_keepsHolds false _ _)
  · exact endReceived_keepsHolds _ rd s

/-! ### The host's commands -/

theorem takeTransaction_keepsHolds {bytes : List Byte} {act : State → Answer} (hact : ∀ w : State, w.KeepsHolds (act w).1)
    (s : State) : s.KeepsHolds (takeTransaction bytes act s) := by
  unfold takeTransaction
  split
  · exact .after ((hact _).keep rfl rfl) rfl rfl
  · exact .refl s

theorem onLock_keepsHolds {act : Lock → State → Answer} (lock : Byte) (hact : ∀ (l : Lock) (w : State), w.KeepsHolds (act l w).1)
    (s : State) : s.KeepsHolds (onLock lock act s).1 := by
  unfold onLock
  (repeat' split) <;> try exact .refl s
  exact hact _ s

theorem answerClaim_keepsHolds (lock mode limit : Byte) (s : State) : s.KeepsHolds (answerClaim lock mode limit s).1 := by
  unfold answerClaim
  split
  · exact .refl s
  · refine onLock_keepsHolds lock (fun l w => ?_) s
    unfold claimLock
    (repeat' split) <;> try exact .refl w
    next habove hnone =>
      exact placeClaim_keepsHolds _ limit (by simpa using habove) (by simpa using hnone) fun p hp => by cases hp

theorem yieldLock_keepsHolds (l : Lock) (s : State) : s.KeepsHolds (yieldLock l s).1 := by
  unfold yieldLock
  (repeat' split) <;> try exact .refl s
  next hr _ => exact yieldRecord_keepsHolds _ hr

theorem withdrawLock_keepsHolds (l : Lock) (s : State) : s.KeepsHolds (withdrawLock l s).1 := by
  unfold withdrawLock
  (repeat' split) <;> try exact .refl s
  next hr _ => exact withdrawRecord_keepsHolds hr

theorem renewLock_keepsHolds (l : Lock) (s : State) : s.KeepsHolds (renewLock l s).1 := by
  unfold renewLock
  split
  next r hr =>
    split
    · exact .replaced hr rfl rfl ⟨rfl, rfl, id⟩
    · exact .refl s
  next => exact .refl s

theorem answerJoin_keepsHolds (s : State) : s.KeepsHolds (answerJoin s).1 := by
  unfold answerJoin
  split <;> exact .of_eq rfl rfl

theorem leaveHolds_keepsHolds (s : State) : s.KeepsHolds (leaveHolds s) := by
  refine .of_follows (by simp) fun i x hx => ?_
  rw [leaveHolds_slot] at hx
  obtain ⟨r, hr, rfl⟩ := Option.map_eq_some_iff.mp hx
  exact ⟨r, hr, rfl, rfl, id⟩

theorem answerLeave_keepsHolds (s : State) : s.KeepsHolds (answerLeave s).1 := by
  unfold answerLeave
  (repeat' split) <;> try exact .refl s
  · have hleft : s.KeepsHolds (purgeRequests (leaveHolds (stopAllGuards s))) :=
      (State.KeepsHolds.after (leaveHolds_keepsHolds (stopAllGuards s)) (by simp) (by simp)).keep rfl rfl
    exact (hleft.trans (enterState_keepsHolds .departing _)).keep rfl rfl
  · exact .after (enterState_keepsHolds .ready (purgeAll s)) (by simp) (by simp)

theorem softReset_keepsHolds (s : State) : s.KeepsHolds (softReset s) := .of_empty (by simp [softReset])

/-- CONFIGURE changes the bindings in UNCONFIGURED only, where the law of the station states has no record (R74, R103). -/
theorem answerConfigure_law (record : Vector Byte 20) (s : State) : s.HoldsLaw → (answerConfigure record s).1.HoldsLaw := by
  unfold answerConfigure
  (repeat' split) <;> exact id

theorem answerConfigure_bound (record : Vector Byte 20) (hs : s.StateLaw) (h : s.recordsBound) :
    (answerConfigure record s).1.recordsBound := by
  unfold answerConfigure
  (repeat' split) <;> try exact h
  next hstate _ c _ =>
    exact (State.KeepsHolds.of_empty (t := s.withSc { s.sc with state := .ready, config := some c })
      (hs.presence (by rw [hstate]; rfl)).2).bound h

/-! ### The clock -/

theorem execHoldExpiry_keepsHolds {i : Tier} (h : execHoldExpiry i s = .next t) : s.KeepsHolds t := by
  unfold execHoldExpiry at h
  cases h
  (repeat' split) <;> try exact .refl s
  next r hr _ =>
    obtain ⟨x, hslots, hx⟩ := yieldRecord_slot .expired r s
    have hexpired : (expireHold r s).rt.slots = putAt s.rt.slots (tierOf r.lock) (some x) := by simp [expireHold, hslots]
    refine ⟨fun hs => ?_, fun hs j y hy => ?_⟩
    · have hrecord : recordFor s r.lock = some r := recordFor_some.mpr ⟨(hs i r hr).1 ▸ hr, rfl⟩
      exact (State.KeepsHolds.replaced hrecord hexpired (by simp) hx).law hs
    · rw [hexpired, putAt_get] at hy
      split at hy
      · cases hy
        exact State.bound_of_config (by simp) hx.lock hx.origin (hs i r hr)
      · exact State.bound_of_config (by simp) rfl rfl (hs j y hy)

theorem passTime_keepsHolds (s : State) : s.KeepsHolds (passTime s) := by
  unfold passTime
  split
  · exact .refl s
  · refine .of_follows rfl fun i x hx => ?_
    have hmap : (s.rt.slots[i]).map (fun r => { r with holdTimer := r.holdTimer.map (· + 1) }) = some x := by
      simpa [tick] using hx
    obtain ⟨r, hr, rfl⟩ := Option.map_eq_some_iff.mp hmap
    exact ⟨r, hr, rfl, rfl, id⟩

/-! ### Every command -/

/-- Every command but CONFIGURE keeps the law and the binding. -/
theorem exec_keepsHolds {i : Instr} (hi : ∀ record, i ≠ .configureCommand record) (h : exec i s = .next t) : s.KeepsHolds t := by
  cases i with
  | configureCommand record => exact absurd rfl (hi record)
  | hardReset => cases h; exact .of_empty rfl
  | joinCommand => cases h; exact takeTransaction_keepsHolds answerJoin_keepsHolds s
  | leaveCommand => cases h; exact takeTransaction_keepsHolds answerLeave_keepsHolds s
  | resetCommand => cases h; exact takeTransaction_keepsHolds softReset_keepsHolds s
  | claimCommand lock mode limit => cases h; exact takeTransaction_keepsHolds (answerClaim_keepsHolds lock mode limit) s
  | yieldCommand lock => cases h; exact takeTransaction_keepsHolds (onLock_keepsHolds lock yieldLock_keepsHolds) s
  | withdrawCommand lock => cases h; exact takeTransaction_keepsHolds (onLock_keepsHolds lock withdrawLock_keepsHolds) s
  | renewCommand lock => cases h; exact takeTransaction_keepsHolds (onLock_keepsHolds lock renewLock_keepsHolds) s
  | readLockCommand lock =>
    cases h
    refine takeTransaction_keepsHolds (fun w => ?_) s
    unfold answerReadLock
    split <;> exact .refl w
  | readRosterCommand => cases h; exact takeTransaction_keepsHolds State.KeepsHolds.refl s
  | readHoldsCommand => cases h; exact takeTransaction_keepsHolds State.KeepsHolds.refl s
  | readNoticeCommand =>
    cases h
    refine takeTransaction_keepsHolds (fun w => ?_) s
    unfold answerReadNotice
    split <;> exact .refl w
  | readStatusCommand => cases h; exact takeTransaction_keepsHolds (fun _ => .of_eq rfl rfl) s
  | unknownCommand code =>
    cases h
    split
    · exact takeTransaction_keepsHolds State.KeepsHolds.refl s
    · exact .refl s
  | unconfirmedStartBit =>
    cases h
    split
    · exact (State.KeepsHolds.after (returnAttempt_keepsHolds true _) (by simp) (by simp)).trans (reportMute_keepsHolds _ _)
    · exact .refl s
  | arbitrationLost =>
    cases h
    split
    · exact .after (returnAttempt_keepsHolds false _) (by simp) (by simp)
    · exact .refl s
  | frameLost cells =>
    cases h
    (repeat' split) <;> try exact .refl s
    exact .after (reportMute_keepsHolds _ _) (by simp) (by simp)
  | frameVoided rd =>
    cases h
    (repeat' split) <;> try exact .refl s
    · exact voidOwn_keepsHolds _ rd s
    · exact endReceived_keepsHolds _ rd s
  | claimFrame rd => cases h; exact acceptedFrame_keepsHolds _ rd s
  | yieldFrame rd => cases h; exact acceptedFrame_keepsHolds _ rd s
  | withdrawFrame rd => cases h; exact acceptedFrame_keepsHolds _ rd s
  | evictFrame rd => cases h; exact acceptedFrame_keepsHolds _ rd s
  | departFrame rd => cases h; exact acceptedFrame_keepsHolds _ rd s
  | beaconFrame rd => cases h; exact acceptedFrame_keepsHolds _ rd s
  | syncAskFrame rd => cases h; exact acceptedFrame_keepsHolds _ rd s
  | pageFrame rd => cases h; exact acceptedFrame_keepsHolds _ rd s
  | enrolFrame rd => cases h; exact acceptedFrame_keepsHolds _ rd s
  | foundFrame rd => cases h; exact acceptedFrame_keepsHolds _ rd s
  | stranding =>
    cases h
    split
    · exact drop_keepsHolds _ s
    · exact .refl s
  | foundingWait =>
    cases h
    split
    · exact (enterState_keepsHolds .founding s).keep (by simp) (by simp)
    · exact .refl s
  | roundTimeout =>
    cases h
    split
    case h_3 => exact .refl s
    all_goals exact roundOut_keepsHolds s
  | holdExpiry i => exact execHoldExpiry_keepsHolds h
  | stableLevelChange p =>
    cases h
    split
    · exact .after (evaluatePin_keepsHolds p _) rfl rfl
    · exact .refl s
  | startBitConfirmed =>
    cases h
    split
    · refine .of_eq ?_ ?_ <;> (unfold startFrame; dsimp only; split <;> rfl)
    · exact .refl s
  | busOpportunity | ownContactReachesP | fenceLimit | absenceLimit =>
    cases h
    (repeat' split) <;> exact .of_eq (by simp) (by simp)
  | _ => cases h; (repeat' split) <;> exact .of_eq rfl rfl

theorem execConfigure_keepsHolds {record : Vector Byte 20} (h : exec (.configureCommand record) s = .next t) :
    (s.HoldsLaw → t.HoldsLaw) ∧ (s.StateLaw → s.recordsBound → t.recordsBound) := by
  cases h
  unfold takeCommand takeTransaction
  split
  · have hport : s.KeepsHolds (s.withHp ((codeOf .configure :: record.toList).foldl receiveByte s.hp)) := .of_eq rfl rfl
    exact ⟨fun hs => answerConfigure_law record _ (hport.law hs), fun hlaw hs =>
      answerConfigure_bound record (hlaw.of_eq rfl rfl rfl rfl rfl) (hport.bound hs)⟩
  · exact ⟨id, fun _ => id⟩

/-- Settles O53: every command but CONFIGURE keeps both whatever the state, and CONFIGURE finds an empty hold list. -/
theorem holdsLawKept : Obligations.HoldsLawKept := by
  intro s t hstep
  rw [State.holdsLawful_iff, State.holdsLawful_iff, State.stateLawful_iff]
  rcases step_cases hstep with ⟨c, n, q, hexec⟩ | rfl
  · have hq : s.KeepsHolds { s with choices := n, pending := q } := .of_eq rfl rfl
    by_cases hc : ∀ record, c ≠ .configureCommand record
    · have hkept := hq.trans (exec_keepsHolds hc hexec)
      exact ⟨hkept.law, fun _ => hkept.bound⟩
    · obtain ⟨record, rfl⟩ : ∃ record, c = .configureCommand record := by simpa using hc
      obtain ⟨hlaw, hbound⟩ := execConfigure_keepsHolds hexec
      exact ⟨hlaw ∘ hq.law, fun hs h => hbound (hs.of_eq rfl rfl rfl rfl rfl) (hq.bound h)⟩
  · have hkept := passTime_keepsHolds s
    exact ⟨hkept.law, fun _ => hkept.bound⟩

end Sys2Proof.Machine
end

section
/-! PROOFS. The lock commands at the host port (R106, R109, R110, R112, R140, R190): how a command reaches its block with its argument
bytes, the refusals they share, and what each does to the record of its lock. -/

namespace Sys2Proof.Machine

variable {s : State} {l : Lock} {lock : Byte} {r : HoldRecord} {act : Lock → State → Answer}

/-! ### A command with its argument bytes -/

theorem receiveByte_last {p : HostPort} {b : Byte} {c : HostCommand} (hphase : p.phase = .arguments) (htaken : p.taken = some c)
    (hbits : p.bits = 8 * argumentBytes c) :
    receiveByte p b = { p with phase := .turnaround, bits := 8 * (1 + argumentBytes c) } := by
  simp only [receiveByte, hphase, takeBytes, htaken, hbits, Option.map_some, Option.getD_some]
  rw [if_pos (by omega), Nat.mul_add]
  simp [Nat.add_comm]

/-- The argument bytes of a command, the last of which leads to the turnaround (R181). -/
theorem receiveByte_arguments {c : HostCommand} {args : List Byte} {p : HostPort} (hphase : p.phase = .arguments)
    (htaken : p.taken = some c) (hne : args ≠ []) (hbits : p.bits + 8 * args.length = 8 * (1 + argumentBytes c)) :
    args.foldl receiveByte p = { p with phase := .turnaround, bits := 8 * (1 + argumentBytes c) } := by
  induction args generalizing p with
  | nil => exact absurd rfl hne
  | cons b args ih =>
    rw [List.foldl_cons]
    rw [List.length_cons] at hbits
    cases args with
    | nil => exact receiveByte_last hphase htaken (by rw [List.length_nil] at hbits; omega)
    | cons d args =>
      have hmore : ¬ 8 * takeBytes p ≤ p.bits + 8 := by
        simp only [takeBytes, htaken, Option.map_some, Option.getD_some, List.length_cons] at hbits ⊢
        omega
      have hnext : receiveByte p b = { p with bits := p.bits + 8 } := by
        simp only [receiveByte, hphase, if_neg hmore]
      rw [hnext]
      exact ih hphase htaken (List.cons_ne_nil d args) (by rw [← hbits]; show p.bits + 8 + _ = _; ring)

/-- The state in which the owning block of a command takes it (R181). -/
def State.received (s : State) (c : HostCommand) : State :=
  s.withHp { s.hp with phase := .turnaround, bits := 8 * (1 + argumentBytes c), taken := some c }

/-- A command with arguments, taken: its block acts on the state with the bytes received, and the answer is held (R181, R182). -/
theorem takeCommand_received {c : HostCommand} {args : List Byte} (answers : State → Answer) (hport : portOpen s = true)
    (hc : commandOfCode (codeOf c) = some c) (hargs : args.length = argumentBytes c) (hne : args ≠ []) :
    takeCommand c args answers s = holdResult (answers (s.received c)) := by
  have hphase : s.hp.phase = .command := by
    simp only [portOpen, Bool.and_eq_true, beq_iff_eq] at hport
    exact hport.2
  have hpos : argumentBytes c ≠ 0 := by rw [← hargs]; simpa using hne
  have hcode : receiveByte s.hp (codeOf c) = { s.hp with phase := .arguments, bits := 8, taken := some c } := by
    simp [receiveByte, hphase, hc, takeBytes, hpos]
  rw [takeCommand, takeTransaction, if_pos hport, List.foldl_cons, hcode,
    receiveByte_arguments (c := c) rfl rfl hne (by rw [hargs]; ring)]
  rfl

theorem exec_claim (mode limit : Byte) (hport : portOpen s = true) :
    exec (.claimCommand lock mode limit) s = .next (holdResult (answerClaim lock mode limit (s.received .claim))) :=
  congrArg Host.Outcome.next (takeCommand_received _ hport rfl rfl (List.cons_ne_nil _ _))

theorem exec_yield (hport : portOpen s = true) :
    exec (.yieldCommand lock) s = .next (holdResult (onLock lock yieldLock (s.received .yield))) :=
  congrArg Host.Outcome.next (takeCommand_received _ hport rfl rfl (List.cons_ne_nil _ _))

theorem exec_withdraw (hport : portOpen s = true) :
    exec (.withdrawCommand lock) s = .next (holdResult (onLock lock withdrawLock (s.received .withdraw))) :=
  congrArg Host.Outcome.next (takeCommand_received _ hport rfl rfl (List.cons_ne_nil _ _))

theorem exec_renew (hport : portOpen s = true) :
    exec (.renewCommand lock) s = .next (holdResult (onLock lock renewLock (s.received .renew))) :=
  congrArg Host.Outcome.next (takeCommand_received _ hport rfl rfl (List.cons_ne_nil _ _))

/-! ### Arguments and the shared refusals -/

theorem lockArg_none (h : 63 < lock.toNat) : lockArg lock = none := if_neg (Nat.not_le.mpr h)

theorem lockArg_some (h : lock.toNat = l.val) : lockArg lock = some l := by
  have hl := l.isLt
  rw [lockArg, if_pos (by omega)]
  exact congrArg some (Fin.ext (by simp only [Fin.val_ofNat]; omega))

theorem lockArg_lockByte (l : Lock) : lockArg (lockByte l) = some l :=
  lockArg_some (by have hl := l.isLt; simp only [lockByte, BitVec.toNat_ofNat]; omega)

theorem modeArg_none {mode : Byte} (h : 1 < mode.toNat) : modeArg mode = none := by
  rw [modeArg, if_neg (by rintro rfl; simp at h), if_neg (by rintro rfl; simp at h)]

theorem modeArg_some {mode : Byte} (h : mode.toNat ≤ 1) :
    modeArg mode = some (if mode.toNat = 1 then .tryOnly else .wait) := by
  have hcases : mode = 0x00 ∨ mode = 0x01 := by bv_omega
  obtain rfl | rfl := hcases <;> rfl

theorem pinBound_iff : pinBound s l = true ↔ ∃ p, requestBinding s p = some l := by
  simp [pinBound]

theorem onLock_range (h : 63 < lock.toNat) : onLock lock act s = answer .range s := by rw [onLock, lockArg_none h]

theorem onLock_state (h : lockArg lock = some l) (hm : s.sc.state ≠ .member) : onLock lock act s = answer .state s := by
  simp only [onLock, h, if_pos hm]

theorem onLock_pinBound (h : lockArg lock = some l) (hm : s.sc.state = .member) (hp : ∃ p, requestBinding s p = some l) :
    onLock lock act s = answer .pinBound s := by
  simp only [onLock, h, pinBound_iff.mpr hp, if_true, if_neg (not_not.mpr hm)]

theorem onLock_free (h : lockArg lock = some l) (hm : s.sc.state = .member) (hp : ∀ p, requestBinding s p ≠ some l) :
    onLock lock act s = act l s := by
  have hfree : pinBound s l = false := by
    rw [Bool.eq_false_iff, Ne, pinBound_iff, not_exists]
    exact hp
  simp [onLock, h, hm, hfree]

/-- What the three commands on a lock share before they look at its record (R140, R190). -/
theorem onLock_refused {code : ResultCode}
    (h : (lock.toNat > 63 ∧ code = .range) ∨ (lock.toNat ≤ 63 ∧ s.sc.state ≠ .member ∧ code = .state) ∨
      (s.sc.state = .member ∧ (∃ p l, requestBinding s p = some l ∧ l.val = lock.toNat) ∧ code = .pinBound)) :
    onLock lock act s = answer code s := by
  obtain ⟨hrange, rfl⟩ | ⟨hle, hm, rfl⟩ | ⟨hm, ⟨p, l, hbind, hl⟩, rfl⟩ := h
  · exact onLock_range hrange
  · exact onLock_state (lockArg_some (l := ⟨lock.toNat, Nat.lt_succ_of_le hle⟩) rfl) hm
  · exact onLock_pinBound (lockArg_some hl.symm) hm ⟨p, hbind⟩

/-- Settles O10: the three commands share the refusals, each of which answers the state as it was received. -/
theorem lockCommandsRefused : Obligations.LockCommandsRefused := by
  intro lock s hport code h
  rw [exec_yield hport, exec_withdraw hport, exec_renew hport]
  exact ⟨congrArg (fun a => Host.Outcome.next (holdResult a)) (onLock_refused (s := s.received .yield) h),
    congrArg (fun a => Host.Outcome.next (holdResult a)) (onLock_refused (s := s.received .withdraw) h),
    congrArg (fun a => Host.Outcome.next (holdResult a)) (onLock_refused (s := s.received .renew) h)⟩

/-! ### CLAIM -/

/-- A state in which CLAIM of a lock reaches its block: a MEMBER, and no pin bound to the lock. -/
theorem answerClaim_free {mode limit : Byte} (hmode : mode.toNat ≤ 1) (hl : lock.toNat = l.val) (hm : s.sc.state = .member)
    (hp : ∀ p, requestBinding s p ≠ some l) :
    answerClaim lock mode limit s = claimLock (if mode.toNat = 1 then .tryOnly else .wait) limit l s := by
  simp only [answerClaim, modeArg_some hmode]
  exact onLock_free (lockArg_some hl) hm hp

theorem recordFor_none : recordFor s l = none ↔ ∀ r, s.rt.slots[tierOf l] = some r → r.lock ≠ l := by
  simp only [Option.eq_none_iff_forall_ne_some, ne_eq, recordFor_some, not_and]

theorem claimLock_held {m : Mode} {limit : Byte} (hr : recordFor s l = some r) : claimLock m limit l s = answer .held s := by
  simp [claimLock, hr]

theorem claimLock_order {m : Mode} {limit : Byte} (hr : recordFor s l = none)
    (h : ∃ i : Tier, (s.rt.slots[i]).isSome = true ∧ tierOf l ≤ i) : claimLock m limit l s = answer .order s := by
  obtain ⟨i, hi, hle⟩ := h
  obtain ⟨x, hx⟩ := Option.isSome_iff_exists.mp hi
  have habove : aboveOccupied s l = false :=
    Bool.eq_false_iff.mpr fun habove => absurd (aboveOccupied_iff.mp habove i x hx) (not_lt.mpr hle)
  simp [claimLock, hr, habove]

/-- A claim above every record of the hold list is refused while one is pending, and taken otherwise (R104, R106). -/
theorem claimLock_above (m : Mode) (limit : Byte) (hr : recordFor s l = none)
    (h : ∀ i : Tier, (s.rt.slots[i]).isSome = true → i < tierOf l) :
    claimLock m limit l s = if anyPending s then answer .pending s else answer .ok (placeClaim .host l m limit s) := by
  have habove : aboveOccupied s l = true := aboveOccupied_iff.mpr fun i x hx => h i (by rw [hx]; rfl)
  simp [claimLock, hr, habove]

theorem claim_answered {mode limit : Byte} {code : ResultCode} (hport : portOpen s = true)
    (h : answerClaim lock mode limit (s.received .claim) = answer code (s.received .claim)) :
    exec (.claimCommand lock mode limit) s = .next { s with hp := s.hp.answered .claim 4 code [] } := by
  rw [exec_claim mode limit hport, h]
  rfl

/-- Settles O9: by the rows of R106, in their order. -/
theorem claimTaken : Obligations.ClaimTaken := by
  intro lock mode limit s hport
  refine ⟨fun hrange => claim_answered hport ?_, fun hmode l hl => ⟨fun hm => claim_answered hport ?_,
    fun hm => ⟨fun hp => claim_answered hport ?_, fun hp => ?_⟩⟩⟩
  · rcases Nat.lt_or_ge 1 mode.toNat with hmode | hmode
    · simp only [answerClaim, modeArg_none hmode]
    · simp only [answerClaim, modeArg_some hmode]
      exact onLock_range (by omega)
  · simp only [answerClaim, modeArg_some hmode]
    exact onLock_state (lockArg_some hl) hm
  · simp only [answerClaim, modeArg_some hmode]
    exact onLock_pinBound (lockArg_some hl) hm hp
  · have hfree := answerClaim_free (limit := limit) (s := s.received .claim) hmode hl hm hp
    refine ⟨fun ⟨r, hr⟩ => claim_answered hport (hfree.trans (claimLock_held (recordFor_some.mpr hr))), fun hnone => ?_⟩
    have hrecord : recordFor (s.received .claim) l = none := recordFor_none.mpr hnone
    refine ⟨fun horder => claim_answered hport (hfree.trans (claimLock_order hrecord horder)), fun horder => ?_⟩
    rw [claimLock_above _ limit hrecord horder] at hfree
    refine ⟨fun ⟨i, r, hr, hpend⟩ => claim_answered hport (hfree.trans (if_pos ?_)), fun hpend => ?_⟩
    · by_contra hno
      rw [anyPending_false.mp (Bool.eq_false_iff.mpr hno) i r hr] at hpend
      cases hpend
    · have hclear : anyPending (s.received .claim) = false := anyPending_false.mpr hpend
      rw [exec_claim mode limit hport, hfree, hclear]
      rfl

/-! ### YIELD, RENEW and WITHDRAW -/

theorem yield_taken (hport : portOpen s = true) (hm : s.sc.state = .member) (hp : ∀ p, requestBinding s p ≠ some l) :
    exec (.yieldCommand (lockByte l)) s = .next (holdResult (yieldLock l (s.received .yield))) := by
  rw [exec_yield hport, onLock_free (s := s.received .yield) (lockArg_lockByte l) hm hp]

theorem renew_taken (hport : portOpen s = true) (hm : s.sc.state = .member) (hp : ∀ p, requestBinding s p ≠ some l) :
    exec (.renewCommand (lockByte l)) s = .next (holdResult (renewLock l (s.received .renew))) := by
  rw [exec_renew hport, onLock_free (s := s.received .renew) (lockArg_lockByte l) hm hp]

theorem withdraw_taken (hport : portOpen s = true) (hm : s.sc.state = .member) (hp : ∀ p, requestBinding s p ≠ some l) :
    exec (.withdrawCommand (lockByte l)) s = .next (holdResult (withdrawLock l (s.received .withdraw))) := by
  rw [exec_withdraw hport, onLock_free (s := s.received .withdraw) (lockArg_lockByte l) hm hp]

/-- What a yield of a HELD record leaves: the record YIELDING with its frame placed, or deferred behind a withdraw, and the lines of its
lock stopped (R109, R119, R122, R132). -/
structure State.Yields (s t : State) (why : Reason) (r : HoldRecord) : Prop where
  slots : t.rt.slots = putAt s.rt.slots (tierOf r.lock) (some
    (if r.withdrawAsked then { r with state := .yielding, holdTimer := none, deferred := some why }
     else { r with state := .yielding, holdTimer := none }))
  entries : t.oq.entries = s.oq.entries ++
    if r.withdrawAsked then [] else [newEntry (.yield r.lock (r.generation.getD 0) why)]
  guards : ∀ n : GrantLine, t.gl.guards[n] = if grantBinding s n = some r.lock then .stopped else s.gl.guards[n]
  rest : t = { s with rt := t.rt, oq := t.oq, gl := t.gl }

theorem stopGuards_guard (l : Lock) (s : State) (n : GrantLine) :
    (stopGuards l s).gl.guards[n] = if grantBinding s n = some l then .stopped else s.gl.guards[n] := by
  simp only [stopGuards, setGuards, State.withGl_gl, tabulate_get]
  cases grantBinding s n <;> simp

theorem yieldRecord_yields (why : Reason) (r : HoldRecord) (s : State) : s.Yields (yieldRecord why r s) why r := by
  cases hmark : r.withdrawAsked with
  | true =>
    have h : yieldRecord why r s = setSlot (tierOf r.lock) (some { r with state := .yielding, holdTimer := none, deferred := some why })
        (stopGuards r.lock s) := by simp [yieldRecord, hmark]
    rw [h]
    exact ⟨by rw [hmark]; rfl, by simp [hmark, setSlot], fun n => stopGuards_guard r.lock s n, rfl⟩
  | false =>
    have h : yieldRecord why r s = placeEntry (.yield r.lock (r.generation.getD 0) why)
        (setSlot (tierOf r.lock) (some { r with state := .yielding, holdTimer := none }) (stopGuards r.lock s)) := by
      simp [yieldRecord, hmark]
    rw [h]
    exact ⟨by rw [hmark]; rfl, by simp [hmark, setSlot, placeEntry], fun n => stopGuards_guard r.lock s n, rfl⟩

/-- A line whose guard is stopped is inactive (R129, R132). -/
theorem stopped_inactive {n : GrantLine} (h : s.gl.guards[n] = .stopped) : grantActive s n = false := by
  simp [grantActive, h]

theorem yieldLock_held (hr : recordFor s l = some r) (hstate : r.state = .held) :
    yieldLock l s = answer .ok (yieldRecord .released r s) := by
  simp only [yieldLock, hr, if_pos hstate]

theorem renewLock_held (hr : recordFor s l = some r) (hstate : r.state = .held) :
    renewLock l s
      = answer .ok (setSlot (tierOf l) (some { r with holdTimer := if r.holdLimit = 0 then r.holdTimer else some 0 }) s) := by
  simp only [renewLock, hr, if_pos hstate]

theorem yieldLock_notHeld (h : ∀ r, recordFor s l = some r → r.state ≠ .held) : yieldLock l s = answer .notHeld s := by
  cases hr : recordFor s l with
  | none => simp only [yieldLock, hr]
  | some r => simp only [yieldLock, hr, if_neg (h r hr)]

theorem renewLock_notHeld (h : ∀ r, recordFor s l = some r → r.state ≠ .held) : renewLock l s = answer .notHeld s := by
  cases hr : recordFor s l with
  | none => simp only [renewLock, hr]
  | some r => simp only [renewLock, hr, if_neg (h r hr)]

/-- Settles O11: both commands act on a HELD record of the lock alone. -/
theorem yieldAndRenewTaken : Obligations.YieldAndRenewTaken := by
  intro l s hport hm hp
  rw [yield_taken hport hm hp, renew_taken hport hm hp]
  refine ⟨fun r hslot hlock hheld => ⟨?_, fun hlimit => ?_, fun hlimit => ?_⟩, fun hother => ?_⟩
  · have hr : recordFor (s.received .yield) l = some r := recordFor_some.mpr ⟨hslot, hlock⟩
    rw [yieldLock_held hr hheld]
    obtain ⟨hslots, hentries, hguards, hrest⟩ := yieldRecord_yields .released r (s.received .yield)
    obtain rfl := hlock
    generalize yieldRecord .released r (s.received .yield) = t at *
    have hhp : (holdResult (answer .ok t)).hp = s.hp.answered .yield 2 .ok [] := by rw [hrest]; rfl
    refine ⟨holdResult (answer .ok t), rfl, hhp, fun n hn => ?_, fun n hn => ?_, fun i hi => ?_, fun hmark => ⟨?_, ?_⟩,
      fun hmark => ⟨?_, ?_⟩, ?_⟩
    · have hstopped : t.gl.guards[n] = .stopped := (hguards n).trans (if_pos hn)
      exact ⟨stopped_inactive (s := holdResult (answer .ok t)) hstopped, hstopped⟩
    · exact (hguards n).trans (if_neg hn)
    · exact (congrArg (·[i]) hslots).trans (putAt_get_other _ _ hi.symm)
    · exact (congrArg (·[tierOf r.lock]) hslots).trans (by rw [putAt_get_self, hmark]; rfl)
    · exact hentries.trans (by rw [hmark]; rfl)
    · exact (congrArg (·[tierOf r.lock]) hslots).trans (by rw [putAt_get_self, hmark]; rfl)
    · have hoq : t.oq.entries = s.oq.entries := hentries.trans (by rw [hmark]; exact List.append_nil _)
      exact congrArg OutboundQueue.mk hoq
    · rw [hrest]
      exact ⟨rfl, rfl, rfl, rfl, rfl, rfl⟩
  · have hr : recordFor (s.received .renew) l = some r := recordFor_some.mpr ⟨hslot, hlock⟩
    rw [renewLock_held hr hheld, if_neg hlimit]
    rfl
  · have hr : recordFor (s.received .renew) l = some r := recordFor_some.mpr ⟨hslot, hlock⟩
    have hsame : setSlot (tierOf l) (some r) (s.received .renew) = s.received .renew := by
      rw [setSlot, ← (show (s.received .renew).rt.slots[tierOf l] = some r from hslot), putAt_same]
      rfl
    rw [renewLock_held hr hheld, if_pos hlimit, hsame]
    rfl
  · rw [yieldLock_notHeld (s := s.received .yield) fun r hr => hother r (recordFor_some.mp hr).1 (recordFor_some.mp hr).2,
      renewLock_notHeld (s := s.received .renew) fun r hr => hother r (recordFor_some.mp hr).1 (recordFor_some.mp hr).2]
    exact ⟨rfl, rfl⟩

theorem withdrawLock_pending (hr : recordFor s l = some r) (h : isPending r = true) :
    withdrawLock l s = answer .ok (withdrawRecord r s) := by
  simp only [withdrawLock, hr, h, if_true]

theorem withdrawLock_notWaiting (h : ∀ r, recordFor s l = some r → isPending r = false) :
    withdrawLock l s = answer .notWaiting s := by
  cases hr : recordFor s l with
  | none => simp only [withdrawLock, hr]
  | some r => simp [withdrawLock, hr, h r hr]

/-! The rows of R110, on any state. -/

theorem placeNotice_noticed (x : Notice) (s : State) : placeNotice x s = s.withHp (s.hp.noticed [x]) := by
  rw [← placeNotice_hp]
  unfold placeNotice
  split <;> rfl

/-- A lock notice at the port (R126, R196, R198). -/
theorem lockNotice_noticed (k : NoticeKind) (l : Lock) (g : Option Generation) (q : Qualifier) (s : State) :
    lockNotice k l g q s = s.withHp (s.hp.noticed [{ withdrawnNotice l s with kind := k, generation := g, qualifier := q }]) :=
  placeNotice_noticed _ s

theorem withdrawRecord_queued (hstate : r.state = .claiming) (hqueued : slotContends .claim (tierOf r.lock) s = false) :
    withdrawRecord r s = { s with
      rt := { slots := putAt s.rt.slots (tierOf r.lock) none },
      oq := { entries := s.oq.entries.filter fun e => e.contending || ownerOf e.content != .slot (tierOf r.lock) },
      hp := s.hp.noticed [withdrawnNotice r.lock s] } := by
  have h : withdrawRecord r s
      = lockNotice .withdrawn r.lock none .none (setSlot (tierOf r.lock) none (cancelRequest (tierOf r.lock) s)) := by
    simp [withdrawRecord, hstate, hqueued]
  rw [h, lockNotice_noticed]
  rfl

theorem withdrawRecord_contending (hstate : r.state = .claiming) (hcontends : slotContends .claim (tierOf r.lock) s = true) :
    withdrawRecord r s
      = setSlot (tierOf r.lock) (some { r with state := .claimCancel, withdrawAsked := true }) s := by
  simp [withdrawRecord, hstate, hcontends]

theorem withdrawRecord_waiting (hstate : r.state = .waiting) :
    withdrawRecord r s = placeEntry (.withdraw r.lock)
      (setSlot (tierOf r.lock) (some { r with state := .withdrawing, withdrawAsked := true }) s) := by
  simp [withdrawRecord, hstate]

theorem withdrawRecord_alone (hstate : r.state = .claimCancel ∨ r.state = .withdrawing ∨ r.state = .yielding) :
    withdrawRecord r s = s := by
  rcases hstate with h | h | h <;> simp [withdrawRecord, h]

/-- Settles O12: by the rows of R110. -/
theorem withdrawTaken : Obligations.WithdrawTaken := by
  intro l s hport hm hp
  rw [withdraw_taken hport hm hp]
  refine ⟨fun r hslot hlock => ?_, fun hother => ?_⟩
  · have hr : recordFor (s.received .withdraw) l = some r := recordFor_some.mpr ⟨hslot, hlock⟩
    obtain rfl := hlock
    refine ⟨fun hstate hqueued => ?_, fun hstate hcontends => ?_, fun hstate => ?_, fun hstate => ?_⟩
    · rw [withdrawLock_pending hr (by rw [isPending, hstate]),
        withdrawRecord_queued (s := s.received .withdraw) hstate hqueued]
      rfl
    · rw [withdrawLock_pending hr (by rw [isPending, hstate]),
        withdrawRecord_contending (s := s.received .withdraw) hstate hcontends]
      rfl
    · rw [withdrawLock_pending hr (by rw [isPending, hstate]), withdrawRecord_waiting hstate]
      rfl
    · have hpending : isPending r = true := by rcases hstate with h | h <;> rw [isPending, h]
      rw [withdrawLock_pending hr hpending, withdrawRecord_alone (hstate.imp_right Or.inl)]
      rfl
  · rw [withdrawLock_notWaiting (s := s.received .withdraw) fun r hr => ?_]
    · rfl
    · obtain ⟨hslot, hlock⟩ := recordFor_some.mp hr
      rcases hother r hslot hlock with h | h <;> rw [isPending, h]

end Sys2Proof.Machine
end

section
/-! PROOFS. What a station does to its own records without a frame: a hold timer at its limit (R119, R122, R132), and the levels of the
request inputs (R107, R108, R110, R119, R135 to R137). -/

namespace Sys2Proof.Machine

variable {s : State} {l : Lock} {r : HoldRecord} {p : Pin} {i : RequestInput} {u : Tier}

/-! ### The hold timer -/

theorem exec_holdExpiry (hm : s.sc.state = .member) (hr : s.rt.slots[u] = some r) (hheld : r.state = .held)
    (htimer : r.holdTimer.isSome = true) : exec (.holdExpiry u) s = .next (expireHold r s) := by
  simp only [exec, execHoldExpiry, hr, hm, hheld, htimer, and_self, if_true]

/-- Settles O48: the yield of the record, with its notice. -/
theorem holdExpires : Obligations.HoldExpires := by
  intro s i r hm hr htier hheld htimer
  obtain rfl := htier
  obtain ⟨hslots, hentries, hguards, hrest⟩ := yieldRecord_yields .expired r s
  rw [exec_holdExpiry hm hr hheld htimer, expireHold, lockNotice_noticed]
  generalize yieldRecord .expired r s = t at *
  have hhp : t.hp = s.hp := by rw [hrest]
  have hau : t.au = s.au := by rw [hrest]
  refine ⟨_, rfl, ?_, fun n hn => ?_, fun n hn => (hguards n).trans (if_neg hn), ?_, fun hmark => ⟨?_, ?_⟩, fun hmark => ⟨?_, ?_⟩⟩
  · rw [hrest]
    rfl
  · have hstopped : t.gl.guards[n] = .stopped := (hguards n).trans (if_pos hn)
    exact ⟨stopped_inactive (s := t.withHp _) hstopped, hstopped⟩
  · simp only [State.withHp_hp, hhp, withdrawnNotice, hau]
  · exact hslots.trans (by rw [hmark]; rfl)
  · exact hentries.trans (by rw [hmark]; rfl)
  · exact hslots.trans (by rw [hmark]; rfl)
  · have hoq : t.oq.entries = s.oq.entries := hentries.trans (by rw [hmark]; exact List.append_nil _)
    exact congrArg OutboundQueue.mk hoq

/-! ### The request inputs -/

theorem evaluatePin_off (h : s.sc.state ≠ .member ∨ requestBinding s p = none) : evaluatePin p s = s := by
  unfold evaluatePin
  cases hbind : requestBinding s p with
  | none => rfl
  | some l => simp [h.resolve_right (by simp [hbind])]

/-- A pin whose level agrees with the record of its lock, or that is ignored, changes nothing (R108, R136). -/
theorem evaluatePin_agrees (hm : s.sc.state = .member) (hbind : requestBinding s p = some l)
    (hhigh : s.ri.inputs[p].stable = true → (recordFor s l).isSome = true ∨ s.ri.inputs[p].ignored = true)
    (hlow : s.ri.inputs[p].stable = false → recordFor s l = none) : evaluatePin p s = s := by
  unfold evaluatePin
  simp only [hbind, hm, if_true]
  cases hlevel : s.ri.inputs[p].stable with
  | true => cases hr : recordFor s l <;> simp_all
  | false => simp [hlow hlevel]

/-- A deasserted pin takes back the record of its lock: it yields a HELD one, and withdraws any other (R108). -/
theorem evaluatePin_low (hm : s.sc.state = .member) (hbind : requestBinding s p = some l) (hr : recordFor s l = some r)
    (hlow : s.ri.inputs[p].stable = false) :
    evaluatePin p s = if r.state = .held then yieldRecord .released r s else withdrawRecord r s := by
  unfold evaluatePin
  simp only [hbind, hm, if_true, hr, hlow, Bool.false_eq_true, if_false]

/-- The state with a request input settled (R135). -/
def State.settled (s : State) (p : Pin) (i : RequestInput) : State := s.withRi { inputs := putAt s.ri.inputs p i }

theorem State.settled_input (s : State) (p : Pin) (i : RequestInput) : (s.settled p i).ri.inputs[p] = i := putAt_get_self _ _ _

theorem exec_stableLevelChange (hrun : s.ri.inputs[p].debounce.isSome = true)
    (hi : i = { raw := s.ri.inputs[p].raw, stable := s.ri.inputs[p].raw, debounce := none,
                ignored := s.ri.inputs[p].raw && s.ri.inputs[p].ignored }) :
    exec (.stableLevelChange p) s = .next (evaluatePin p (s.settled p i)) := by
  have hsettled : settledInput s.ri.inputs[p] = i := by rw [hi, settledInput, Bool.and_comm]
  simp only [exec, execStableLevelChange, hrun, if_true, hsettled]
  rfl

theorem exec_rawLevelChange (level : Bool) :
    (s.ri.inputs[p].raw = level → exec (.rawLevelChange p level) s = .next s) ∧
    (s.ri.inputs[p].raw ≠ level → exec (.rawLevelChange p level) s = .next { s with
      ri := RequestInputs.mk (putAt s.ri.inputs p { s.ri.inputs[p] with
        raw := level, debounce := if s.inReset = true ∨ level = s.ri.inputs[p].stable then none else some 0 }) }) := by
  simp only [exec, execRawLevelChange]
  refine ⟨fun h => by rw [if_pos h], fun h => ?_⟩
  rw [if_neg h]
  simp [rawInput, State.withRi]

/-- A claim where every record is below the lock's tier and none is pending (R104, R107). -/
theorem pinClaim_open (h : ∀ (u : Tier) (r : HoldRecord), s.rt.slots[u] = some r → u < tierOf l ∧ isPending r = false) :
    pinClaim p l s = placeClaim (.req p) l .wait (requestLimit s p) s := by
  refine if_pos (Bool.and_eq_true_iff.mpr ⟨aboveOccupied_iff.mpr fun u r hr => (h u r hr).1, ?_⟩)
  rw [anyPending_false.mpr fun u r hr => (h u r hr).2]
  rfl

/-- A claim that the tier rule or the pending rule refuses (R104, R107). -/
theorem pinClaim_refused (h : ∃ (u : Tier) (r : HoldRecord), s.rt.slots[u] = some r ∧ (tierOf l ≤ u ∨ isPending r = true)) :
    pinClaim p l s = ignorePin p (lockNotice .pinRefused l none .none s) := by
  obtain ⟨u, r, hr, hblocks⟩ := h
  refine if_neg fun hopen => ?_
  obtain ⟨habove, hfree⟩ := Bool.and_eq_true_iff.mp hopen
  rcases hblocks with hle | hpend
  · exact absurd (aboveOccupied_iff.mp habove u r hr) (not_lt.mpr hle)
  · rw [anyPending_false.mp (by simpa using hfree) u r hr] at hpend
    cases hpend

/-- Settles O50: the raw level runs the debounce timer, and the settled level is examined on the record of the pin's lock. -/
theorem pinLevelsFollowed : Obligations.PinLevelsFollowed := by
  refine fun s p => ⟨fun level => exec_rawLevelChange level, fun hrun i hi => ?_⟩
  rw [exec_stableLevelChange hrun hi]
  have hinput := s.settled_input p i
  refine ⟨fun hoff => congrArg Host.Outcome.next (evaluatePin_off (s := s.settled p i) hoff), fun l hm hbind => ⟨fun hhigh hnone hclear => ?_,
    fun hhigh hlow => ?_, fun r hlow hr => ?_⟩⟩
  · have hclaims : evaluatePin p (s.settled p i) = pinClaim p l (s.settled p i) :=
      evaluatePin_claims (s := s.settled p i) hm hbind hnone
        (by rw [State.pinAsks, hinput, hhigh]; exact Option.isSome_iff_exists.mpr ⟨l, hbind⟩) (by rw [hinput, hclear])
    rw [hclaims]
    refine ⟨fun hfree => ?_, fun hblocked => ?_⟩
    · rw [pinClaim_open (s := s.settled p i) hfree]
      rfl
    · rw [pinClaim_refused (s := s.settled p i) hblocked, lockNotice_noticed]
      have htwice := putAt_twice s.ri.inputs p i { i with ignored := true }
      have hignored : ∀ w : State, w.ri.inputs = putAt s.ri.inputs p i →
          ignorePin p w = w.withRi { inputs := putAt s.ri.inputs p { i with ignored := true } } := by
        intro w hw
        rw [ignorePin, hw, putAt_get_self, htwice]
      rw [hignored _ rfl]
      rfl
  · rw [evaluatePin_agrees (s := s.settled p i) hm hbind (by rwa [hinput]) (by rwa [hinput])]
    rfl
  · have heval := evaluatePin_low (s := s.settled p i) hm hbind hr (by rw [hinput, hlow])
    obtain ⟨-, rfl⟩ := recordFor_some.mp hr
    rw [heval]
    refine ⟨fun hheld => ?_, fun hwaits => ?_, fun hclaims hcontends => ?_, fun hclaims hqueued => ?_, fun halone => ?_⟩
    · rw [if_pos hheld]
      obtain ⟨hslots, hentries, hguards, hrest⟩ := yieldRecord_yields .released r (s.settled p i)
      refine ⟨_, rfl, hrest, fun n hn => ?_, fun hmark => ⟨?_, ?_⟩, fun hmark => ⟨?_, ?_⟩⟩
      · have hstopped := (hguards n).trans (if_pos hn)
        exact ⟨stopped_inactive hstopped, hstopped⟩
      · exact hslots.trans (by rw [hmark]; rfl)
      · exact hentries.trans (by rw [hmark]; rfl)
      · have hoq : (yieldRecord .released r (s.settled p i)).oq.entries = s.oq.entries := by
          rw [hentries, hmark]
          exact List.append_nil _
        exact congrArg OutboundQueue.mk hoq
      · exact hslots.trans (by rw [hmark]; rfl)
    · rw [if_neg (by rw [hwaits]; decide), withdrawRecord_waiting hwaits]
      rfl
    · rw [if_neg (by rw [hclaims]; decide), withdrawRecord_contending (s := s.settled p i) hclaims hcontends]
      rfl
    · rw [if_neg (by rw [hclaims]; decide), withdrawRecord_queued (s := s.settled p i) hclaims hqueued]
      rfl
    · rw [if_neg (by rintro hheld; rw [hheld] at halone; revert halone; decide), withdrawRecord_alone halone]
      rfl

end Sys2Proof.Machine
end

section
/-! PROOFS. A request frame whose attempt ends without acceptance (R111, R117, R119, R123, R150, R151, R154): what the Request Tracker does
with it in MEMBER, by the state of its record, and in DEPARTING. -/

namespace Sys2Proof.Machine

variable {s : State} {before after : List Entry} {e : Entry} {c : Instr} {voided : Bool} {x : LineController} {l : Lock} {r : HoldRecord}

/-! ### How the frame comes back -/

theorem exec_attemptReturned (h : s.attempts before e after) (hends : s.endsAttempt c voided x)
    (hquiet : voting s.sc.state = true → ¬ x.mute) : exec c s = .next (returnAttempt voided (s.withLc x)) := by
  obtain ⟨-, now, hmute, hexec⟩ := exec_endsAttempt h hends
  have hnow : now = false := Bool.eq_false_iff.mpr fun hnow => hquiet (hmute hnow).1 (hmute hnow).2
  rw [hexec, hnow]
  rfl

/-- In DEPARTING the frame is removed, and its record told (R123, R154). -/
theorem exec_requestDropped {i : Tier} (h : s.attempts before e after) (hends : s.endsAttempt c voided x)
    (hquiet : voting s.sc.state = true → ¬ x.mute) (hd : e.discard = false) (hs : s.sc.state = .departing)
    (howner : ownerOf e.content = .slot i) :
    exec c s = .next (dropRequest (.slot i) ((s.withLc x).withEntries (before ++ after))) := by
  have hrequest : isRequest e.content = true := by rw [isRequest, howner]
  rw [exec_attemptReturned h hends hquiet, (h.onLine x).returnAttempt (exec_endsAttempt h hends).1, howner]
  simp only [hd, hrequest, State.withLc_sc, hs, and_self, Bool.false_eq_true, if_false, if_true]

/-- In MEMBER it goes back to the Request Tracker (R111, R119, R151). -/
theorem exec_requestReturned (h : s.attempts before e after) (hends : s.endsAttempt c voided x)
    (hquiet : voting s.sc.state = true → ¬ x.mute) (hd : e.discard = false) (hs : s.sc.state = .member)
    (hrequest : isRequest e.content = true) :
    exec c s = .next (requestReturned (e.abandoned voided) (e.returned voided).voids e.content (s.withLc x)) := by
  rw [exec_attemptReturned h hends hquiet, (h.onLine x).returnAttempt (exec_endsAttempt h hends).1]
  simp [hd, hrequest, hs]

/-! ### The rows, on any state -/

theorem requestReturned_yield (b : Bool) (n : Nat) (l : Lock) (g : Generation) (why : Reason) (s : State) :
    requestReturned b n (.yield l g why) s = returnContending n s := rfl

theorem requestReturned_withdrawing (b : Bool) (n : Nat) (hr : recordFor s l = some r) (hstate : r.state = .withdrawing) :
    requestReturned b n (.withdraw l) s = returnContending n s := by
  simp only [requestReturned, hr, hstate]

theorem requestReturned_granted (b : Bool) (n : Nat) (hr : recordFor s l = some r) (hstate : r.state = .held ∨ r.state = .yielding) :
    requestReturned b n (.withdraw l) s = withdrawLeft r (removeContending s) := by
  rcases hstate with hstate | hstate <;> simp only [requestReturned, hr, hstate]

theorem requestReturned_claiming (n : Nat) {m : Mode} (hr : recordFor s l = some r) (hstate : r.state = .claiming) :
    requestReturned false n (.claim l m) s = returnContending n s := by
  simp only [requestReturned, hr, hstate, Bool.false_eq_true, if_false]

theorem requestReturned_abandoned (n : Nat) {m : Mode} (hr : recordFor s l = some r) (hstate : r.state = .claiming) :
    requestReturned true n (.claim l m) s
      = emptySlot (some (.claimFailed, none, .none)) r (ignoreOrigin r.origin (removeContending s)) := by
  simp only [requestReturned, hr, hstate, if_true]

theorem requestReturned_cancelled (b : Bool) (n : Nat) {m : Mode} (hr : recordFor s l = some r) (hstate : r.state = .claimCancel) :
    requestReturned b n (.claim l m) s = emptySlot (some (.withdrawn, none, .none)) r (removeContending s) := by
  simp only [requestReturned, hr, hstate]

theorem cancelRequest_none {i : Tier} (h : ∀ y ∈ s.oq.entries, ownerOf y.content ≠ .slot i) : cancelRequest i s = s := by
  have hall : (s.oq.entries.filter fun e => e.contending || !(ownerOf e.content == .slot i)) = s.oq.entries :=
    List.filter_eq_self.mpr fun y hy => by simp [h y hy]
  rw [cancelRequest, cancelQueued, hall]
  rfl

/-- The notice with which a slot empties, if it has one (R111, R113 to R117). -/
def State.endNotices (s : State) (l : Lock) : Option (NoticeKind × Option Generation × Qualifier) → List Notice
  | none => []
  | some (k, g, q) => [{ withdrawnNotice l s with kind := k, generation := g, qualifier := q }]

/-- The station with the slot of a record emptied and its notice placed, before its pin is looked at. -/
def State.emptied (s : State) (r : HoldRecord) (n : Option (NoticeKind × Option Generation × Qualifier)) : State :=
  (setSlot (tierOf r.lock) none (cancelRequest (tierOf r.lock) s)).withHp (s.hp.noticed (s.endNotices r.lock n))

theorem emptySlot_emptied (n : Option (NoticeKind × Option Generation × Qualifier)) (r : HoldRecord) (s : State) :
    emptySlot n r s = evaluateOrigin r.origin (s.emptied r n) := by
  cases n with
  | none =>
    rw [State.emptied, State.endNotices, HostPort.noticed_nil]
    rfl
  | some x =>
    rw [emptySlot]
    rw [lockNotice_noticed]
    rfl

/-- The slot had no other entry (R143). -/
theorem emptied_alone {n : Option (NoticeKind × Option Generation × Qualifier)}
    (h : ∀ y ∈ s.oq.entries, ownerOf y.content ≠ .slot (tierOf r.lock)) :
    s.emptied r n = { s with rt := RequestTracker.mk (putAt s.rt.slots (tierOf r.lock) none),
                             hp := s.hp.noticed (s.endNotices r.lock n) } := by
  rw [State.emptied, cancelRequest_none h]
  rfl

theorem emptySlot_host (n : Option (NoticeKind × Option Generation × Qualifier)) (ho : r.origin = .host)
    (h : ∀ y ∈ s.oq.entries, ownerOf y.content ≠ .slot (tierOf r.lock)) :
    emptySlot n r s = { s with rt := RequestTracker.mk (putAt s.rt.slots (tierOf r.lock) none),
                               hp := s.hp.noticed (s.endNotices r.lock n) } := by
  rw [emptySlot_emptied, ho, emptied_alone h]
  rfl

/-- The entry has been abandoned exactly when a void came on fifteen of an abandonable kind (R151). -/
theorem Entry.abandoned_claim {m : Mode} (hc : e.content = .claim l m) : e.abandoned voided = (voided && decide (15 ≤ e.voids)) := by
  simp [Entry.abandoned, hc, abandonable]

/-- Settles O20: by the state of the station, the frame and the state of its record. -/
theorem requestAttemptEnds : Obligations.RequestAttemptEnds := by
  intro s before after e c voided x h hends hquiet hd
  have hreturned := (h.onLine x).returned
  have hremoved := (h.onLine x).removed
  refine ⟨fun i hs howner => ?_, fun hs => ⟨fun l g why hc => ?_, fun l r hc hr => ?_, fun l m r hc hr => ?_⟩⟩
  · rw [exec_requestDropped h hends hquiet hd hs howner]
    refine ⟨fun hnone => ?_, fun r hr => ?_⟩
    · simp only [dropRequest, State.withEntries_rt, State.withLc_rt, hnone]
      rfl
    · simp only [dropRequest, State.withEntries_rt, State.withLc_rt, hr]
      rfl
  · rw [exec_requestReturned h hends hquiet hd hs (by rw [hc]; rfl), hc, requestReturned_yield, hreturned]
    rfl
  · have hr : recordFor (s.withLc x) l = some r := hr
    rw [exec_requestReturned h hends hquiet hd hs (by rw [hc]; rfl), hc]
    refine ⟨fun hstate => ?_, fun hstate => ?_⟩
    · rw [requestReturned_withdrawing _ _ hr hstate, hreturned]
      rfl
    · obtain rfl := (recordFor_some.mp hr).2
      rw [requestReturned_granted _ _ hr hstate, hremoved]
      cases hdeferred : r.deferred <;> simp [withdrawLeft, hdeferred, setSlot, placeEntry, State.withEntries, State.withRt]
  · have hr : recordFor (s.withLc x) l = some r := hr
    obtain rfl := (recordFor_some.mp hr).2
    rw [exec_requestReturned h hends hquiet hd hs (by rw [hc]; rfl), hc, Entry.abandoned_claim hc]
    refine ⟨fun hstate hfew => ?_, fun hstate hvoided hvoids ho hothers => ?_, fun hstate ho hothers => ?_⟩
    · have hnot : (voided && decide (15 ≤ e.voids)) = false := by
        rw [Bool.and_eq_false_imp]
        exact fun hv => decide_eq_false (not_le.mpr (hfew hv))
      rw [hnot, requestReturned_claiming _ hr hstate, hreturned]
      rfl
    · rw [hvoided, decide_eq_true hvoids, Bool.and_self, requestReturned_abandoned _ hr hstate, ho, hremoved]
      exact congrArg Host.Outcome.next (emptySlot_host _ ho hothers)
    · rw [requestReturned_cancelled _ _ hr hstate, hremoved]
      exact congrArg Host.Outcome.next (emptySlot_host _ ho hothers)

end Sys2Proof.Machine
end

section
/-! PROOFS. A record of pin origin at a change where its pin decides (R107, R108, R111, R113 to R117, R132, R136): a slot that empties, a grant
that finds the pin deasserted, and grants of several locks in one application. -/

namespace Sys2Proof.Machine

variable {s t u w : State} {rd : Reading} {f : Frame} {l k : Lock} {r x : HoldRecord} {p : Pin} {g : Generation} {o : LockOutcome}
variable {first rest : List Notice} {q : BusSeq} {n : Option (NoticeKind × Option Generation × Qualifier)}

/-! ### A slot that empties under its pin -/

theorem emptied_slots : (s.emptied r n).rt.slots = putAt s.rt.slots (tierOf r.lock) none := by
  simp [State.emptied, setSlot_slots]

theorem emptied_hp : (s.emptied r n).hp = s.hp.noticed (s.endNotices r.lock n) := rfl

theorem emptied_frame : (s.emptied r n).sc = s.sc ∧ (s.emptied r n).ri = s.ri ∧ (s.emptied r n).au = s.au := by
  simp [State.emptied]

/-- The pin of an emptied slot claims anew, is refused, or leaves the slot empty (R104, R107, R108, R136). -/
theorem emptySlot_reclaims (hm : s.sc.state = .member) (hbind : requestBinding s p = some r.lock) (ho : r.origin = .req p) :
    s.pinReclaims (emptySlot n r s) p r.lock s.au.replica.busSeq (s.endNotices r.lock n) [] := by
  obtain ⟨esc, eri, eau⟩ := emptied_frame (s := s) (r := r) (n := n)
  have hempty : (s.emptied r n).rt.slots[tierOf r.lock] = none := by rw [emptied_slots, putAt_get_self]
  have hblocks : (s.emptied r n).blocks r.lock = s.blocks r.lock := blocks_congr (State.keepsOthers_of_slot emptied_slots)
  have heval : emptySlot n r s
      = if s.ri.inputs[p].stable && !s.ri.inputs[p].ignored then pinClaim p r.lock (s.emptied r n) else s.emptied r n := by
    rw [emptySlot_emptied, ho, ← eri]
    exact evaluatePin_emptied (by rw [esc, hm]) (by rw [requestBinding_congr (congrArg _ esc), hbind]) hempty
  simp only [State.pinReclaims, List.append_nil]
  refine ⟨fun hhigh hclear => ?_, fun hno => ?_⟩
  · rw [heval, if_pos (by rw [hhigh, hclear]; rfl)]
    refine ⟨fun hfree => ?_, fun hblocked => ?_⟩
    · have hclaim : pinClaim p r.lock (s.emptied r n) = placeClaim (.req p) r.lock .wait (requestLimit s p) (s.emptied r n) := by
        rw [pinClaim_free hempty (hblocks.trans hfree), requestLimit_congr (congrArg _ esc)]
      rw [hclaim]
      refine ⟨?_, by simp [placeClaim, placeEntry], by simp [eri], by simp [emptied_hp]⟩
      simp [placeClaim, setSlot_slots, emptied_slots, putAt_twice, State.pinRecord]
    · rw [pinClaim_blocked hempty (hblocks.trans hblocked)]
      refine ⟨by simp [emptied_slots], by simp [ignorePin, eri], ?_⟩
      simp [lockNotice_hp, emptied_hp, eau, HostPort.noticed_append, pinRefusedOf]
  · have hstays : (s.ri.inputs[p].stable && !s.ri.inputs[p].ignored) = false := by
      rcases hno with h | h
      · rw [h, Bool.false_and]
      · rw [h, Bool.not_true, Bool.and_false]
    rw [heval, hstays]
    exact ⟨emptied_slots, eri, emptied_hp⟩

/-- What the blocks do afterwards leaves the hold list and the request inputs, and adds its own notices. -/
theorem State.pinReclaims.followed (h : w.pinReclaims u p l q first []) (hrt : w.rt = s.rt) (hri : w.ri = s.ri) (hhp : w.hp = s.hp)
    (hsc : w.sc = s.sc) (htrt : t.rt = u.rt) (htri : t.ri = u.ri) (hthp : t.hp = u.hp.noticed rest)
    (hclaim : newEntry (.claim l .wait) ∈ u.oq.entries → newEntry (.claim l .wait) ∈ t.oq.entries) :
    s.pinReclaims t p l q first rest := by
  have hrecord : w.pinRecord p l = s.pinRecord p l := by simp only [State.pinRecord, requestLimit, hsc]
  have hblocks : w.blocks l = s.blocks l := blocks_congr (State.keepsOthers_of_rt hrt l)
  simp only [State.pinReclaims, hrecord, hblocks, hrt, hri, hhp, List.append_nil] at h
  obtain ⟨hasks, hstays⟩ := h
  refine ⟨fun hhigh hclear => ⟨fun hfree => ?_, fun hblocked => ?_⟩, fun hno => ?_⟩
  · obtain ⟨uslots, uclaim, uri, uhp⟩ := (hasks hhigh hclear).1 hfree
    exact ⟨by rw [htrt, uslots], hclaim uclaim, htri.trans uri, by rw [hthp, uhp, HostPort.noticed_append]⟩
  · obtain ⟨uslots, uri, uhp⟩ := (hasks hhigh hclear).2 hblocked
    exact ⟨by rw [htrt, uslots], by rw [htri, uri], by rw [hthp, uhp, HostPort.noticed_append]; simp⟩
  · obtain ⟨uslots, uri, uhp⟩ := hstays hno
    exact ⟨by rw [htrt, uslots], htri.trans uri, by rw [hthp, uhp, HostPort.noticed_append]⟩

/-- A slot that empties by an own lock frame (R33, R38, R53, R108). -/
theorem ownLock_reclaims (hw : s.lockSent w) (ht : s.lockReacted (emptySlot n r w) t) (hm : s.sc.state = .member)
    (hbind : requestBinding s p = some r.lock) (ho : r.origin = .req p) :
    s.pinReclaims t p r.lock (s.au.replica.busSeq + 1) (w.endNotices r.lock n) s.contactLeft := by
  have hreclaims := emptySlot_reclaims (s := w) (n := n) (by rw [hw.sc, hm]) (by rw [requestBinding_congr (congrArg _ hw.sc), hbind]) ho
  rw [hw.busSeq] at hreclaims
  exact hreclaims.followed hw.rt hw.ri hw.hp hw.sc ht.rt ht.ri ht.hp (mem_of_kept (.inr rfl) ht.kept).mpr

theorem State.lockSent.endNotice (hw : s.lockSent w) (l : Lock) (y : NoticeKind) (a : Option Generation) (b : Qualifier) :
    w.endNotices l (some (y, a, b)) = [lockNoticeOf y l a b s] := by
  simp only [State.endNotices, withdrawnNotice, hw.busSeq, lockNoticeOf]

/-- An ignored pin leaves its emptied slot empty (R136). -/
theorem emptySlot_ignored (hm : s.sc.state = .member) (hbind : requestBinding s p = some r.lock) (ho : r.origin = .req p) :
    emptySlot n r (ignoreOrigin r.origin s) = (ignorePin p s).emptied r n := by
  have hpin : ignoreOrigin r.origin s = ignorePin p s := by rw [ho]; rfl
  have hempty : ((ignorePin p s).emptied r n).rt.slots[tierOf r.lock] = none := by rw [emptied_slots, putAt_get_self]
  obtain ⟨esc, eri, -⟩ := emptied_frame (s := ignorePin p s) (r := r) (n := n)
  have hignored : ((ignorePin p s).emptied r n).ri.inputs[p].ignored = true := by rw [eri]; simp [ignorePin]
  rw [hpin, emptySlot_emptied, ho]
  refine (evaluatePin_emptied (by rw [esc]; exact hm) ?_ hempty).trans ?_
  · rw [requestBinding_congr (congrArg _ esc)]
    exact hbind
  · rw [hignored, Bool.not_true, Bool.and_false, if_neg (by decide)]

/-! ### Grants of other locks -/

/-- A change that passes by the record of a lock: its slot and its entries stay, and so do the stable levels and the fence; notices may be
placed (R113). -/
structure State.PassesBy (s u : State) (l : Lock) : Prop where
  slot : u.rt.slots[tierOf l] = s.rt.slots[tierOf l]
  entries : ∀ e : Entry, ownerOf e.content = .slot (tierOf l) → (e ∈ u.oq.entries ↔ e ∈ s.oq.entries)
  levels : ∀ p : Pin, u.ri.inputs[p].stable = s.ri.inputs[p].stable
  frame : u.sc = s.sc ∧ u.au = s.au
  tells : s.tells u

namespace State.PassesBy

theorem refl (s : State) (l : Lock) : s.PassesBy s l := ⟨rfl, fun _ _ => Iff.rfl, fun _ => rfl, ⟨rfl, rfl⟩, s.tells_refl⟩

theorem trans (h1 : s.PassesBy t l) (h2 : t.PassesBy u l) : s.PassesBy u l where
  slot := h2.slot.trans h1.slot
  entries e he := (h2.entries e he).trans (h1.entries e he)
  levels p := (h2.levels p).trans (h1.levels p)
  frame := ⟨h2.frame.1.trans h1.frame.1, h2.frame.2.trans h1.frame.2⟩
  tells := h1.tells.trans h2.tells

theorem record (h : s.PassesBy u l) (hr : recordFor s l = some r) : recordFor u l = some r := by
  rw [recordFor_some, h.slot]
  exact recordFor_some.mp hr

theorem pinFell (h : s.PassesBy u l) (r : HoldRecord) : u.pinFell r = s.pinFell r := by
  simp only [State.pinFell, h.frame.1, h.levels]

theorem markStays (h : s.PassesBy u l) (hlock : r.lock = l) : u.markStays r = s.markStays r := by
  have hcontends : slotContends .withdraw (tierOf r.lock) u = slotContends .withdraw (tierOf r.lock) s := by
    rw [Bool.eq_iff_iff]
    simp only [slotContends, List.any_eq_true, Bool.and_eq_true, beq_iff_eq, hlock]
    exact ⟨fun ⟨e, he, ⟨hc, ho⟩, hk⟩ => ⟨e, (h.entries e ho).mp he, ⟨hc, ho⟩, hk⟩,
      fun ⟨e, he, ⟨hc, ho⟩, hk⟩ => ⟨e, (h.entries e ho).mpr he, ⟨hc, ho⟩, hk⟩⟩
  simp only [State.markStays, hcontends]

end State.PassesBy

theorem yieldRecord_passesBy (why : Reason) (htier : tierOf x.lock ≠ tierOf l) : s.PassesBy (yieldRecord why x s) l where
  slot := by rw [(yieldRecord_yields why x s).slots, putAt_get_other _ _ htier]
  entries e he := by
    have hother : e ≠ newEntry (.yield x.lock (x.generation.getD 0) why) := by
      rintro rfl
      exact htier (Owner.slot.inj he)
    rw [(yieldRecord_yields why x s).entries]
    split
    · rw [List.append_nil]
    · rw [List.mem_append, List.mem_singleton, or_iff_left hother]
  levels p := by simp
  frame := by simp
  tells := State.tells_of_eq (by simp)

/-- A record of another slot that enters HELD stays so, or is yielded at once under a deasserted pin (R108, R113). -/
theorem enterHeld_passesBy (hb : s.bound x) (htier : tierOf x.lock ≠ tierOf l) (y : NoticeKind) (mark : Bool) (g : Generation) :
    s.PassesBy (enterHeld y mark g x s) l := by
  generalize hw : lockNotice y x.lock (some g) .none (startGuards x.lock (setSlot (tierOf x.lock)
    (some { x with state := .held, generation := some g, withdrawAsked := mark,
                   holdTimer := if x.holdLimit ≠ 0 ∧ s.sc.state = .member then some 0 else none })
    (cancelRequest (tierOf x.lock) s))) = w
  have hheld : enterHeld y mark g x s = evaluateOrigin x.origin w := by rw [← hw]; rfl
  have hsc : w.sc = s.sc := by simp [← hw]
  have hslots : w.rt.slots = putAt s.rt.slots (tierOf x.lock) (some
      { x with state := .held, generation := some g, withdrawAsked := mark,
               holdTimer := if x.holdLimit ≠ 0 ∧ s.sc.state = .member then some 0 else none }) := by
    simp [← hw, setSlot_slots]
  have hpass : s.PassesBy w l := by
    refine ⟨by rw [hslots, putAt_get_other _ _ htier], fun e he => ?_, fun p => by simp [← hw], by simp [← hw], ?_⟩
    · have hother : tierOf l ≠ tierOf x.lock := htier.symm
      simp [← hw, cancelRequest, cancelQueued, he, hother]
    · rw [← hw]
      exact (State.tells_of_eq (by simp)).trans (lockNotice_tells _ _ _ _ _)
  have hrecord (z : HoldRecord) (hz : recordFor w x.lock = some z) : z.state = .held ∧ z.lock = x.lock := by
    cases recordFor_slot hslots hz
    exact ⟨rfl, rfl⟩
  rw [hheld]
  rcases evaluateOrigin_cases (s := w) fun _ => (bound_congr hsc x).mpr hb with h | ⟨hnone, -⟩ | ⟨z, hz, -, h⟩ | ⟨z, hz, hnot, -⟩
  · rw [h]
    exact hpass
  · rw [recordFor, hslots, putAt_get_self] at hnone
    simp at hnone
  · rw [h]
    exact hpass.trans (yieldRecord_passesBy _ (by rw [(hrecord z hz).2]; exact htier))
  · exact absurd (hrecord z hz).1 hnot

/-- The grant of another lock passes the record of this one by (R113, R118). -/
theorem grant_passesBy {me : Station} (hbound : s.recordsBound) (hr : recordFor s l = some r) (hne : k ≠ l) :
    s.PassesBy (takeOutcome (outcomeOf .granted k me g) s) l := by
  cases hk : recordFor s k with
  | none =>
    rw [takeOutcome_granted_none hk]
    exact .refl s l
  | some x =>
    obtain ⟨hslot, hlock⟩ := recordFor_some.mp hk
    have htier : tierOf x.lock ≠ tierOf l := by
      rw [hlock]
      exact tier_ne_of_records hr hk hne
    rw [takeOutcome_granted_some hk]
    unfold takeGrant
    split
    case h_5 => exact .refl s l
    all_goals exact enterHeld_passesBy (hbound _ x hslot) htier _ _ _

theorem grants_passBy {me : Station} {h : Lock → Generation} {ls : List Lock} (hbound : s.recordsBound)
    (hr : recordFor s l = some r) (hls : l ∉ ls) :
    s.PassesBy ((ls.map fun k => outcomeOf .granted k me (h k)).foldl (fun t o => takeOutcome o t) s) l ∧
    ((ls.map fun k => outcomeOf .granted k me (h k)).foldl (fun t o => takeOutcome o t) s).recordsBound := by
  induction ls generalizing s with
  | nil => exact ⟨.refl s l, hbound⟩
  | cons k ls ih =>
    obtain ⟨hk, hmore⟩ : l ≠ k ∧ l ∉ ls := by rwa [List.mem_cons, not_or] at hls
    have hpass := grant_passesBy (me := me) (g := h k) hbound hr (Ne.symm hk)
    have hkept := (takeOutcome_keepsHolds (outcomeOf .granted k me (h k)) s).bound hbound
    obtain ⟨hrest, hends⟩ := ih hkept (hpass.record hr) hmore
    exact ⟨hpass.trans hrest, hends⟩

/-- A WITHDRAWING record granted while its pin is deasserted, among the grants of other locks: YIELDING at once, its YIELD placed, and
TOO_LATE among the notices (R108, R113). -/
theorem grants_fell {h : Lock → Generation} {ls : List Lock} (hls : ls.Nodup) (hl : l ∈ ls) (hbound : s.recordsBound)
    (hr : recordFor s l = some r) (hstate : r.state = .withdrawing) (hpin : s.pinFell r = true) (hmark : s.markStays r = false) :
    let u := (ls.map fun k => outcomeOf .granted k s.station (h k)).foldl (fun t o => takeOutcome o t) s
    u.rt.slots[tierOf l] = some { r with state := .yielding, withdrawAsked := false, holdTimer := none, generation := some (h l) } ∧
    newEntry (.yield l (h l) .released) ∈ u.oq.entries ∧
    ∃ first rest, u.hp = s.hp.noticed (first ++
      { withdrawnNotice l s with kind := .tooLate, generation := some (h l) } :: rest) := by
  intro u
  obtain ⟨pre, post, rfl⟩ := List.append_of_mem hl
  obtain ⟨hpre, hpost⟩ : l ∉ pre ∧ l ∉ post := by
    rw [List.nodup_append, List.nodup_cons] at hls
    obtain ⟨-, ⟨hpost, -⟩, hdisjoint⟩ := hls
    exact ⟨fun hmem => hdisjoint l hmem l (List.mem_cons_self ..) rfl, hpost⟩
  obtain ⟨hbefore, hvbound⟩ := grants_passBy (me := s.station) (h := h) hbound hr hpre
  generalize hv : (pre.map fun k => outcomeOf .granted k s.station (h k)).foldl (fun t o => takeOutcome o t) s = v at hbefore hvbound
  have hvr : recordFor v l = some r := hbefore.record hr
  obtain ⟨hvslot, hlock⟩ := recordFor_some.mp hvr
  obtain ⟨gslots, -, ghp, goq, -⟩ := takeGrant_taken (s := v) (h l) ⟨.inr hstate, fun _ => hvbound _ r hvslot⟩
  have hvpin : v.pinFell r = true := (hbefore.pinFell r).trans hpin
  have hvmark : v.markStays r = false := (hbefore.markStays hlock).trans hmark
  have htaken : recordFor (takeGrant (h l) r v) l = some (v.grantTaken r (h l)) := by
    rw [recordFor_some, gslots, hlock, putAt_get_self, grantTaken_lock]
    exact ⟨rfl, hlock⟩
  obtain ⟨hafter, -⟩ := grants_passBy (me := s.station) (h := h) ((takeGrant_keepsHolds hvr (h l)).bound hvbound) htaken hpost
  have hu : u = (post.map fun k => outcomeOf .granted k s.station (h k)).foldl (fun t o => takeOutcome o t) (takeGrant (h l) r v) := by
    simp only [u, List.map_append, List.map_cons, List.foldl_append, List.foldl_cons, hv, takeOutcome_granted_some hvr]
  rw [← hu] at hafter
  obtain ⟨before, hbhp⟩ := hbefore.tells
  obtain ⟨after, hahp⟩ := hafter.tells
  refine ⟨?_, (hafter.entries _ rfl).mpr ?_, before, after, ?_⟩
  · rw [hafter.slot, (recordFor_some.mp htaken).1, State.grantTaken, if_pos hvpin, hvmark]
    rfl
  · rw [goq, State.fellEntries, hvpin, hvmark, hlock]
    simp
  · rw [hahp, ghp, hbhp, HostPort.noticed_append, HostPort.noticed_append, hbefore.frame.2, hlock, HoldRecord.grantKind, if_pos (.inr hstate)]
    simp [withdrawnNotice]

/-! ### A grant that finds the pin deasserted -/

/-- A WITHDRAWING record granted while its pin is deasserted, once the blocks have reacted (R108, R113, R132). -/
def State.yieldedAtOnce (s t : State) (l : Lock) (r : HoldRecord) (g : Generation) : Prop :=
  t.rt.slots[tierOf l] = some { r with state := .yielding, withdrawAsked := false, holdTimer := none, generation := some g } ∧
  newEntry (.yield l g .released) ∈ t.oq.entries ∧
  (∀ n : GrantLine, grantBinding s n = some l → grantActive t n = false) ∧
  ∃ first rest, t.hp = s.hp.noticed (first ++ lockNoticeOf .tooLate l (some g) .none s :: rest)

/-- A YIELDING record drives no line (R129). -/
theorem yielding_inactive {y : HoldRecord} (hslot : t.rt.slots[tierOf l] = some y) (hstate : y.state = .yielding) (hsc : t.sc = s.sc)
    {n : GrantLine} (hn : grantBinding s n = some l) : grantActive t n = false := by
  have hbind : grantBinding t n = some l := by rw [← hn]; simp only [grantBinding, hsc]
  have hnot : lockHeld t l = false := by
    rw [lockHeld, recordFor, hslot]
    by_cases hlock : y.lock = l <;> simp [hlock, hstate]
  simp [grantActive, hbind, hnot]

theorem grantTaken_yielding (hpin : s.pinFell r = true) (hmark : s.markStays r = false) (g : Generation) :
    s.grantTaken r g = { r with state := .yielding, withdrawAsked := false, holdTimer := none, generation := some g } := by
  simp only [State.grantTaken, if_pos hpin, hmark]
  rfl

/-- The YIELD of another station that grants the record (R15, R108, R113). -/
theorem heardYield_fell (h : s.receives rd f) (hstep : s.inStep f) (hk : f.kind = .yield) (hl : lockField f.payload = l)
    (hclear : s.tc.uncollected[l] = false) (hholder : s.au.replica.table[l].holder = some f.sender) (hne : f.sender ≠ s.station)
    (hgen : s.au.replica.table[l].generation = generationField f.payload)
    (hhead : s.au.replica.table[l].waiters.head? = some s.station) (hr : recordFor s l = some r) (hb : s.bound r)
    (hstate : r.state = .withdrawing) (hpin : s.pinFell r = true) (hmark : s.markStays r = false) :
    ∃ t, exec (.yieldFrame rd) s = .next t ∧ s.yieldedAtOnce t l r (s.nextTenure l) := by
  subst hl
  obtain ⟨-, happlied⟩ := yieldFrameApplied s rd f h hk hstep
  obtain ⟨t, e, hexec, -, -, -, -, howned⟩ := happlied hclear
  obtain ⟨waiters, hwaiters⟩ := List.head?_eq_some_iff.mp hhead
  obtain ⟨-, hgranted⟩ := (howned hholder hgen).2 _ waiters hwaiters
  obtain ⟨tslots, tfollows, -, -, thp⟩ := hgranted r rfl hne hr ⟨.inr hstate, fun _ => hb⟩
  obtain ⟨tlines, tyield⟩ := tfollows.2 hpin
  rw [State.nextTenure, hgen]
  refine ⟨t, hexec, ?_, tyield hmark, tlines, [], [], ?_⟩
  · rw [tslots, putAt_get_self, grantTaken_yielding hpin hmark]
  · rw [thp, HoldRecord.grantKind, if_pos (.inr hstate)]
    rfl

/-- The outcomes of a removal that reach this station, taken in order (R20, R113). -/
theorem heardLeft_outcomes (s : State) (rd : Reading) (gone : Station) :
    takeOutcomes (s.removalOutcomes gone) (s.heardLeft rd gone)
      = ((s.handedLocks gone).map fun l => outcomeOf .granted l s.station (s.nextTenure l)).foldl (fun t o => takeOutcome o t)
        (s.heardLeft rd gone) := by
  rw [← removal_grants]
  rfl

/-- The removal of another station, by its EVICT or its DEPART, that grants the record (R20, R108, R113). -/
theorem heardLeft_fell {gone : Station} {why : LeftCause} {events : List TransferEvent} (hm : s.sc.state = .member)
    (hne : gone ≠ s.station) (hhanded : s.handed gone l = true) (hbound : s.recordsBound) (hr : recordFor s l = some r)
    (hstate : r.state = .withdrawing) (hpin : s.pinFell r = true) (hmark : s.markStays r = false) :
    s.yieldedAtOnce (handOn (removalReport false f gone why (s.removalOutcomes gone) events) (s.heardLeft rd gone)) l r
      (s.nextTenure l) := by
  obtain ⟨-, tsc, -, -, trt, -, -, thp, -, toq⟩ := handOn_removal (s := s.heardLeft rd gone) (f := f) (why := why)
    (outcomes := s.removalOutcomes gone) (events := events) (by rw [show (s.heardLeft rd gone).sc = s.sc from rfl, hm]; rfl) hne
  have hout : takeOutcomes (s.removalOutcomes gone) (s.heardLeft rd gone)
      = ((s.handedLocks gone).map fun l => outcomeOf .granted l (s.heardLeft rd gone).station (s.nextTenure l)).foldl
        (fun t o => takeOutcome o t) (s.heardLeft rd gone) := heardLeft_outcomes s rd gone
  obtain ⟨uslot, uyield, first, rest, uhp⟩ := grants_fell (s := s.heardLeft rd gone) (h := s.nextTenure) (s.handedLocks_nodup gone)
    (State.mem_handedLocks.mpr hhanded) hbound hr hstate hpin hmark
  rw [← hout] at uslot uyield uhp
  have hustation : (takeOutcomes (s.removalOutcomes gone) (s.heardLeft rd gone)).station = s.station := by simp [State.heardLeft, State.heardWith]
  obtain ⟨-, -, -, -, -, vhp⟩ := memberRemoved_heard (s := takeOutcomes (s.removalOutcomes gone) (s.heardLeft rd gone)) (gone := gone)
    f.sender why (by rw [hustation]; exact hne)
  generalize handOn (removalReport false f gone why (s.removalOutcomes gone) events) (s.heardLeft rd gone) = t at *
  have tslot := (congrArg (fun x : RequestTracker => x.slots[tierOf l]) trt).trans uslot
  refine ⟨tslot, (mem_of_kept (.inr rfl) toq).mpr uyield, fun n => yielding_inactive tslot rfl tsc, first, ?_, ?_⟩
  rotate_left
  · rw [thp, vhp, uhp, HostPort.noticed_append, HostPort.noticed_append, List.append_assoc]
    rfl

/-! ### The clauses -/

/-- A record of pin origin at a MEMBER, its pin bound to its lock. -/
structure State.PinOwns (s : State) (p : Pin) (r : HoldRecord) : Prop where
  member : s.sc.state = .member
  binding : requestBinding s p = some r.lock
  record : recordFor s r.lock = some r
  origin : r.origin = .req p

theorem State.PinOwns.isBound (h : s.PinOwns p r) : s.bound r := .inr ⟨p, h.origin, h.binding⟩

theorem State.PinOwns.fell (h : s.PinOwns p r) (hlow : s.ri.inputs[p].stable = false) : s.pinFell r = true := by
  simp only [State.pinFell, h.member, h.origin, hlow]
  rfl

/-- The CLAIM of a CLAIMING record is refused with REFUSED_FULL: the pin is ignored, and its slot stays empty (R114, R136). -/
theorem ownClaim_full (hp : s.PinOwns p r) (hw : s.lockSent w)
    (ht : s.lockReacted (emptySlot (some (.refusedFull, some g, .none)) r (ignoreOrigin r.origin w)) t) :
    t.rt.slots = putAt s.rt.slots (tierOf r.lock) none ∧
    t.ri.inputs = putAt s.ri.inputs p { s.ri.inputs[p] with ignored := true } ∧
    t.hp = s.hp.noticed (lockNoticeOf .refusedFull r.lock (some g) .none s :: s.contactLeft) := by
  rw [emptySlot_ignored (by rw [hw.sc, hp.member]) (by rw [requestBinding_congr (congrArg _ hw.sc), hp.binding]) hp.origin] at ht
  obtain ⟨-, eri, -⟩ := emptied_frame (s := ignorePin p w) (r := r) (n := some (.refusedFull, some g, .none))
  refine ⟨?_, ?_, ?_⟩
  · rw [ht.rt, emptied_slots, show (ignorePin p w).rt = s.rt from hw.rt]
  · rw [ht.ri, eri, ← hw.ri]
    rfl
  · have hnotice : (ignorePin p w).endNotices r.lock (some (.refusedFull, some g, .none)) = _ := hw.endNotice r.lock _ _ _
    rw [ht.hp, emptied_hp, show (ignorePin p w).hp = s.hp from hw.hp, hnotice, HostPort.noticed_append]
    rfl

/-- A CLAIM of this station that its lock's entry refuses, by the state of the record (R107, R114, R136). -/
theorem ownClaim_pinRefused {h : Station} (hp : s.PinOwns p r) (hsend : s.sendsInStep rd f) (hk : f.kind = .claim)
    (hl : lockField f.payload = r.lock) (hclear : s.tc.uncollected[r.lock] = false)
    (hholder : s.au.replica.table[r.lock].holder = some h) (hne : h ≠ s.station)
    (hnew : s.station ∉ s.au.replica.table[r.lock].waiters) :
    (r.state = .claiming → modeField f.payload = .wait → 8 ≤ s.au.replica.table[r.lock].waiters.length →
      ∃ t, exec (.claimFrame rd) s = .next t ∧ t.rt.slots = putAt s.rt.slots (tierOf r.lock) none ∧
        t.ri.inputs = putAt s.ri.inputs p { s.ri.inputs[p] with ignored := true } ∧
        t.hp = s.hp.noticed (lockNoticeOf .refusedFull r.lock (some s.au.replica.table[r.lock].generation) .none s
          :: s.contactLeft)) ∧
    (r.state = .claimCancel → (modeField f.payload = .tryOnly ∨ 8 ≤ s.au.replica.table[r.lock].waiters.length) →
      ∃ t, exec (.claimFrame rd) s = .next t ∧
        s.pinReclaims t p r.lock (s.au.replica.busSeq + 1) [lockNoticeOf .withdrawn r.lock none .none s] s.contactLeft) := by
  obtain ⟨o, w, t, hlock, hanswers, hw, hexec, ht⟩ := ownClaim_answered hsend hk hl hclear
  have hrecord : recordFor w o.lock = some r := by rw [hlock, hw.recordFor, hp.record]
  obtain ⟨hgen, -, -, -, hbusy, hfull⟩ := hanswers.other h hholder hne
  refine ⟨fun hstate hmode hlen => ⟨t, hexec, ?_⟩, fun hstate hwhy => ⟨t, hexec, ?_⟩⟩
  · rw [takeOutcome_full hrecord (hfull hnew hmode hlen) hstate, hgen] at ht
    exact ownClaim_full hp hw ht
  · have hname : o.name = .refusedBusy ∨ o.name = .refusedFull := by
      cases hmode : modeField f.payload with
      | tryOnly => exact .inl (hbusy hnew hmode)
      | wait => exact .inr (hfull hnew hmode (hwhy.resolve_left (by rw [hmode]; decide)))
    rw [takeOutcome_cancelled hrecord hname hstate] at ht
    have hreclaims := ownLock_reclaims hw ht hp.member hp.binding hp.origin
    rwa [hw.endNotice] at hreclaims

/-- The CLAIM of a CLAIM_CANCEL record is granted, and its pin is deasserted: the record is yielded at once (R108, R113). -/
theorem ownClaim_fell (hp : s.PinOwns p r) (hsend : s.sendsInStep rd f) (hk : f.kind = .claim) (hl : lockField f.payload = r.lock)
    (hclear : s.tc.uncollected[r.lock] = false) (hstate : r.state = .claimCancel)
    (hholder : s.au.replica.table[r.lock].holder = none) (hlow : s.ri.inputs[p].stable = false) :
    ∃ t, exec (.claimFrame rd) s = .next t ∧
      t.rt.slots[tierOf r.lock] = some { r with state := .yielding, withdrawAsked := false, holdTimer := none,
                                                generation := some (s.nextTenure r.lock) } ∧
      newEntry (.yield r.lock (s.nextTenure r.lock) .released) ∈ t.oq.entries ∧
      (∀ n : GrantLine, grantBinding s n = some r.lock → grantActive t n = false) ∧
      t.hp = s.hp.noticed (lockNoticeOf .tooLate r.lock (some (s.nextTenure r.lock)) .none s :: s.contactLeft) := by
  obtain ⟨o, w, t, hlock, hanswers, hw, hexec, ht⟩ := ownClaim_answered hsend hk hl hclear
  have hrecord : recordFor w o.lock = some r := by rw [hlock, hw.recordFor, hp.record]
  obtain ⟨hname, hgen⟩ := hanswers.free hholder
  rw [takeOutcome_held hrecord (.inl hname) (.inr hstate), hgen] at ht
  obtain ⟨tslot, tfollows, -, -, thp⟩ := ownClaim_granted hw ht rfl (.inr hstate) hp.isBound fun hno => absurd hp.member hno
  have hmark : s.markStays r = false := markStays_claim (.inr hstate)
  obtain ⟨tlines, tyield⟩ := tfollows.2 (hp.fell hlow)
  refine ⟨t, hexec, ?_, tyield hmark, tlines, ?_⟩
  · rw [tslot, grantTaken_yielding (hp.fell hlow) hmark]
    rfl
  · rw [thp, HoldRecord.grantKind, if_pos (.inl hstate)]
    rfl

/-- The own YIELD ends the record, and its pin decides on the slot (R108, R115, R116). -/
theorem ownYield_reclaims (hp : s.PinOwns p r) (hsend : s.sendsInStep rd f) (hk : f.kind = .yield) (hl : lockField f.payload = r.lock)
    (hclear : s.tc.uncollected[r.lock] = false) (hstate : r.state = .yielding)
    (hhead : s.au.replica.table[r.lock].waiters.head? ≠ some s.station) :
    ∃ t, exec (.yieldFrame rd) s = .next t ∧ t.sc = s.sc ∧ t.pm.ownContact = 0 ∧ t.pm.contact = false ∧
      t.pm.quorum = s.pm.quorum ∧ s.guardsMoved t ∧
      (s.au.replica.table[r.lock].holder = some s.station → s.au.replica.table[r.lock].generation = generationField f.payload →
        s.pinReclaims t p r.lock (s.au.replica.busSeq + 1)
          (if reasonField f.flags = .released then
            [lockNoticeOf .yielded r.lock (some (generationField f.payload)) (.stale false) s] else []) s.contactLeft) ∧
      (¬ (s.au.replica.table[r.lock].holder = some s.station ∧
          s.au.replica.table[r.lock].generation = generationField f.payload) →
        s.pinReclaims t p r.lock (s.au.replica.busSeq + 1)
          [lockNoticeOf .yielded r.lock (some s.au.replica.table[r.lock].generation) (.stale true) s] s.contactLeft) := by
  obtain ⟨o, w, t, hlock, hreleases, hw, hexec, ht⟩ := ownYield_answered hsend hk hl hclear hhead
  have hrecord : recordFor w o.lock = some r := by rw [hlock, hw.recordFor, hp.record]
  have hplain : o.name ≠ .granted ∧ o.name ≠ .alreadyHeld := by
    rcases hreleases.name with hname | hname <;> simp [hname]
  have hmoved := ht.guardsMoved ((takeOutcome_lines hrecord (hw.bound hp.isBound) hplain.1 hplain.2).trans hw.gl)
  refine ⟨t, hexec, ht.sc, ht.ownContact, ht.contact, ht.quorum, hmoved, fun hholder hgen => ?_, fun hno => ?_⟩
  · obtain ⟨hname, hg⟩ := hreleases.own ⟨hholder, hgen⟩
    obtain ⟨hreleased, hexpired⟩ := takeOutcome_yielded hrecord hname hstate
    cases hwhy : reasonField f.flags with
    | released =>
      rw [hreleased (by rw [hreleases.why, hwhy]), hg] at ht
      have hreclaims := ownLock_reclaims hw ht hp.member hp.binding hp.origin
      rw [hw.endNotice] at hreclaims
      rwa [if_pos rfl]
    | expired =>
      rw [hexpired (by rw [hreleases.why, hwhy])] at ht
      rw [if_neg (by decide)]
      exact ownLock_reclaims hw ht hp.member hp.binding hp.origin
  · obtain ⟨hname, hg⟩ := hreleases.stale hno
    rw [takeOutcome_stale hrecord hname hstate, hg] at ht
    have hreclaims := ownLock_reclaims hw ht hp.member hp.binding hp.origin
    rwa [hw.endNotice] at hreclaims

/-- The own WITHDRAW ends the record, and its pin decides on the slot (R108, R117). -/
theorem ownWithdraw_reclaims (hp : s.PinOwns p r) (hsend : s.sendsInStep rd f) (hk : f.kind = .withdraw)
    (hl : lockField f.payload = r.lock) (hclear : s.tc.uncollected[r.lock] = false) (hstate : r.state = .withdrawing) :
    ∃ t, exec (.withdrawFrame rd) s = .next t ∧ s.guardsMoved t ∧
      s.pinReclaims t p r.lock (s.au.replica.busSeq + 1) [lockNoticeOf .withdrawn r.lock none .none s] s.contactLeft := by
  obtain ⟨o, w, t, hlock, hname, -, hw, hexec, ht⟩ := ownWithdraw_answered hsend hk hl hclear
  have hrecord : recordFor w o.lock = some r := by rw [hlock, hw.recordFor, hp.record]
  have hplain : o.name ≠ .granted ∧ o.name ≠ .alreadyHeld := by
    rcases hname with hname | hname <;> simp [hname]
  have hmoved := ht.guardsMoved ((takeOutcome_lines hrecord (hw.bound hp.isBound) hplain.1 hplain.2).trans hw.gl)
  rw [takeOutcome_withdrawn hrecord hname hstate] at ht
  have hreclaims := ownLock_reclaims hw ht hp.member hp.binding hp.origin
  rw [hw.endNotice] at hreclaims
  exact ⟨t, hexec, hmoved, hreclaims⟩

/-- Another station's YIELD, EVICT or DEPART grants the record (R15, R20, R108, R113). -/
theorem heard_fell {h : Station} (hp : s.PinOwns p r) (hhear : s.receives rd f) (hstep : s.inStep f) (hbound : s.recordsBound)
    (hstate : r.state = .withdrawing) (hlow : s.ri.inputs[p].stable = false)
    (hidle : slotContends .withdraw (tierOf r.lock) s = false) (hclear : s.tc.uncollected[r.lock] = false) (hne : h ≠ s.station)
    (hholder : s.au.replica.table[r.lock].holder = some h) (hhead : s.au.replica.table[r.lock].waiters.head? = some s.station)
    (hframe : f.kind = .yield ∧ f.sender = h ∧ lockField f.payload = r.lock ∧
        s.au.replica.table[r.lock].generation = generationField f.payload ∨
      f.kind = .evict ∧ targetField f.payload = h ∧ s.au.replica.roster[h] = true ∨ f.kind = .depart ∧ f.sender = h) :
    ∃ t, exec (frameCommand f.kind rd) s = .next t ∧ s.yieldedAtOnce t r.lock r (s.nextTenure r.lock) := by
  have hmark : s.markStays r = false := by simp [State.markStays, hidle]
  have hhanded : s.handed h r.lock = true := by
    rw [State.handed, hclear, hholder, hhead]
    simp
  rcases hframe with ⟨hk, rfl, hl, hgen⟩ | ⟨hk, htarget, hmember⟩ | ⟨hk, rfl⟩ <;> rw [hk]
  · exact heardYield_fell hhear hstep hk hl hclear hholder hne hgen hhead hp.record hp.isBound hstate (hp.fell hlow) hmark
  · exact ⟨_, heardEvict_applied hhear hk hstep htarget hmember,
      heardLeft_fell hp.member hne hhanded hbound hp.record hstate (hp.fell hlow) hmark⟩
  · exact ⟨_, heardDepart_applied hhear hk hstep,
      heardLeft_fell hp.member hne hhanded hbound hp.record hstate (hp.fell hlow) hmark⟩

/-- The attempt of a CLAIM ends without acceptance where the pin decides (R107, R111, R136). -/
theorem claimAttempt_pin {before after : List Entry} {e : Entry} {c : Instr} {voided : Bool} {y : LineController} {m : Mode}
    (hp : s.PinOwns p r) (h : s.attempts before e after) (hends : s.endsAttempt c voided y) (hquiet : ¬ y.mute)
    (hd : e.discard = false) (hc : e.content = .claim r.lock m) :
    (r.state = .claiming → voided = true → 15 ≤ e.voids → (∀ z ∈ before ++ after, ownerOf z.content ≠ ownerOf e.content) →
      exec c s = .next { s with
        oq := OutboundQueue.mk (before ++ after), lc := y,
        rt := RequestTracker.mk (putAt s.rt.slots (tierOf r.lock) none),
        ri := RequestInputs.mk (putAt s.ri.inputs p { s.ri.inputs[p] with ignored := true }),
        hp := s.hp.noticed [{ withdrawnNotice r.lock s with kind := .claimFailed }] }) ∧
    (r.state = .claimCancel → ∃ t, exec c s = .next t ∧ t.lc = y ∧
      s.pinReclaims t p r.lock s.au.replica.busSeq [withdrawnNotice r.lock s] []) := by
  rw [exec_requestReturned h hends (fun _ => hquiet) hd hp.member (by rw [hc]; rfl), hc, Entry.abandoned_claim hc]
  have hr : recordFor (s.withLc y) r.lock = some r := hp.record
  refine ⟨fun hstate hvoided hvoids hothers => ?_, fun hstate => ⟨_, rfl, ?_⟩⟩
  · rw [hvoided, decide_eq_true hvoids, Bool.and_self, requestReturned_abandoned _ hr hstate, (h.onLine y).removed,
      emptySlot_ignored (s := (s.withLc y).withEntries (before ++ after)) hp.member hp.binding hp.origin, emptied_alone hothers]
    rfl
  · rw [requestReturned_cancelled _ _ hr hstate, (h.onLine y).removed]
    refine ⟨by simp, ?_⟩
    exact (emptySlot_reclaims (s := (s.withLc y).withEntries (before ++ after)) hp.member hp.binding hp.origin).followed
      rfl rfl rfl rfl rfl rfl (HostPort.noticed_nil _).symm id

/-- Settles O41: clause by clause, on the record and its pin. -/
theorem pinRecordFollowed : Obligations.PinRecordFollowed := by
  intro s p l r hm hbind hr ho hclear
  obtain rfl := (recordFor_some.mp hr).2
  have hp : s.PinOwns p r := ⟨hm, hbind, hr, ho⟩
  refine ⟨fun rd f h hsend hk hl hholder hne hnew => ownClaim_pinRefused hp hsend hk hl hclear hholder hne hnew,
    fun rd f hsend hk hl hstate hholder hlow => ownClaim_fell hp hsend hk hl hclear hstate hholder hlow,
    fun rd f h hhear hstep hbound hstate hlow hidle hne hholder hhead hframe =>
      heard_fell hp hhear hstep hbound hstate hlow hidle hclear hne hholder hhead hframe,
    fun rd f hsend hl => ⟨fun hk hstate hhead => ownYield_reclaims hp hsend hk hl hclear hstate hhead,
      fun hk hstate => ownWithdraw_reclaims hp hsend hk hl hclear hstate⟩,
    fun before after e c voided y h hends hquiet hd ⟨m, hc⟩ => claimAttempt_pin hp h hends hquiet hd hc⟩

end Sys2Proof.Machine
end

section
/-! PROOFS. A qualifying lock page at a COLLECTING station (R24, R47, R48, R86, R87, R94): the page installed and the collection advanced or
complete, or the drop with DESYNCED. -/

namespace Sys2Proof.Machine

variable {s w : State} {rd : Reading} {f : Frame} {rep : Report} {p : List Byte} {l : Lock} {n : Nat}

/-! ### The four locks of a page -/

theorem pageLock_val (hn : n ≤ 16) {j : Nat} (hj : j < 4) : (pageLock n j).val = 4 * (n - 1) + j := by
  simp only [pageLock, Fin.val_ofNat]
  omega

/-- Each lock of a page is written once, and every other place keeps what it holds (R24). -/
theorem pageLocks_written {α : Type} (hn : n ≤ 16) (val : Nat → α) (v : Vector α 64) (l : Lock) :
    (∀ j : Fin 4, l.val = 4 * (n - 1) + j.val →
      ((List.range 4).foldl (fun v j => putAt v (pageLock n j) (val j)) v)[l] = val j.val) ∧
    ((∀ j : Fin 4, l.val ≠ 4 * (n - 1) + j.val) →
      ((List.range 4).foldl (fun v j => putAt v (pageLock n j) (val j)) v)[l] = v[l]) := by
  rcases foldl_putAt_get (pageLock n) val (List.range 4) v l with ⟨hnot, heq⟩ | ⟨k, hk, rfl, heq⟩
  · refine ⟨fun j hj => absurd (List.mem_map.mpr ⟨j.val, List.mem_range.mpr j.isLt, ?_⟩) hnot, fun _ => heq⟩
    exact Fin.ext ((pageLock_val hn j.isLt).trans hj.symm)
  · have hk4 := List.mem_range.mp hk
    have hval := pageLock_val hn hk4
    refine ⟨fun j hj => ?_, fun hno => absurd hval (hno ⟨k, hk4⟩)⟩
    have hkj : k = j.val := by omega
    rw [heq, hkj]

/-! ### The application -/

/-- A lock page has a number up to 16 (R168). -/
theorem receive_page_number (h : receive rd = .clean f) (hk : f.kind = .page) : (byteAt f.payload 1).toNat ≤ 16 := by
  have hlength := receive_clean_length h
  rw [hk] at hlength
  unfold lengthMatches at hlength
  dsimp only at hlength
  split at hlength
  next hpayload =>
    rw [hpayload]
    split at hlength
    next hzero => simp [byteAt, hzero]
    next =>
      rw [Bool.and_eq_true, decide_eq_true_eq] at hlength
      exact hlength.1
  next => cases hlength

/-- The receiver of a PAGE with its transfer record applied, before the images are looked at. -/
def State.pageHeard (s : State) (rd : Reading) (f : Frame) : State :=
  (s.withLc (s.lc.heard rd.cells)).withAu (.after { s.au.replica with transfer := (pageRound f s.au.replica).1 })

/-- The report of a PAGE. -/
def State.pageReport (s : State) (f : Frame) : Report := transferReport false f (pageRound f s.au.replica).2

theorem pageReport_plain (s : State) (f : Frame) : (s.pageReport f).plain := transferReport_plain false (pageRound_events f _)

theorem takesLockPage_page (hq : s.qualifies f) (hfirst : 1 ≤ (byteAt f.payload 1).toNat) :
    takesLockPage (s.pageReport f) = true := by
  have hround : pageRound f s.au.replica = takePage (byteAt f.payload 1).toNat s.au.replica.roster s.au.replica.transfer :=
    if_pos ((pageQualifies_iff s f).mpr hq)
  have htaken : .pageTaken (byteAt f.payload 1).toNat ∈ (s.pageReport f).events := by
    simp only [State.pageReport, transferReport, hround, takePage]
    split <;> simp_all
  exact List.any_eq_true.mpr ⟨_, htaken, decide_eq_true hfirst⟩

theorem exec_pageCollected (h : s.receives rd f) (hk : f.kind = .page) (hstep : s.inStep f) (hcol : s.sc.state = .collecting)
    (hq : s.qualifies f) (hfirst : 1 ≤ (byteAt f.payload 1).toNat) :
    exec (.pageFrame rd) s = .next (handOn (installPage f.payload (s.pageHeard rd f) (s.pageReport f)).2
      (installPage f.payload (s.pageHeard rd f) (s.pageReport f)).1) := by
  have hexec : exec (.pageFrame rd) s = .next (acceptFrame false f (s.withLc (s.lc.heard rd.cells))) := by
    have hframe := exec_frameCommand (s := s) f.kind rd
    rw [acceptedFrame_receives s h, hk] at hframe
    exact hframe
  have hv : voting (s.withLc (s.lc.heard rd.cells)).sc.state = true := h.2.1
  have happlied : dispositionOf (s.withLc (s.lc.heard rd.cells)).au.replica f = .applied :=
    dispositionOf_inStep s (by simp [hk]) hstep
  have hinstalls : (s.withLc (s.lc.heard rd.cells)).sc.state = .collecting ∧ takesLockPage (s.pageReport f) = true :=
    ⟨hcol, takesLockPage_page hq hfirst⟩
  have htake : takeFrame false f (s.withLc (s.lc.heard rd.cells))
      = installPage f.payload (s.pageHeard rd f) (s.pageReport f) := by
    rw [takeFrame, happlied]
    dsimp only
    rw [applyFrame, applyKind_page _ _ _ _ hk]
    exact if_pos hinstalls
  rw [hexec, acceptFrame, if_pos hv, htake]
  rfl

/-- The station with the four images of a page installed (R24, R86). -/
def State.pageInstalled (s : State) (p : List Byte) : State :=
  ((s.withReplica { s.au.replica with table := installImages p (byteAt p 1).toNat s.au.replica.table }).withTc
    { collected := s.tc.collected + 1, uncollected := clearMarks (byteAt p 1).toNat s.tc.uncollected }).withSc
    { s.sc with roundTimer := 0 }

theorem imagesPass_iff {roster : StationSet} :
    ((List.range 4).all fun j => imagePasses roster (imageAt p j)) = true ↔
      ∀ j : Fin 4, imagePasses roster (imageAt p j.val) = true := by
  simp only [List.all_eq_true, List.mem_range]
  exact ⟨fun h j => h j.val j.isLt, fun h j hj => h ⟨j, hj⟩⟩

theorem installPage_passes (rep : Report) (h : ∀ j : Fin 4, imagePasses s.au.replica.roster (imageAt p j.val) = true) :
    installPage p s rep = (s.pageInstalled p, rep) := if_pos (imagesPass_iff.mpr h)

theorem installPage_fails (rep : Report) (h : ∃ j : Fin 4, imagePasses s.au.replica.roster (imageAt p j.val) = false) :
    installPage p s rep = (s, { rep with imageFailure := true }) := by
  obtain ⟨j, hj⟩ := h
  refine if_neg fun hall => ?_
  have hpass := imagesPass_iff.mp hall j
  rw [hj] at hpass
  cases hpass

/-! ### The reactions -/

/-- Of a report without outcomes a joining station's Station Controller and queue alone take note (R38, R52). -/
theorem handOn_silent (ha : rep.disposition = .applied) (hout : rep.outcomes = []) (hp : present s.sc.state = false) :
    handOn rep s = if voting (stationReport rep s).sc.state then revalidate (keepFeeding (stationReport rep s))
      else keepFeeding (stationReport rep s) := by
  have hnot : s.sc.state ≠ .departing := by rintro h; rw [h] at hp; cases hp
  have hnone : takeOutcomes rep.outcomes s = s := takeOutcomes_none s (by simp [hout])
  have hholds : departHolds rep s = s := by simp [departHolds, hnot]
  have hreact : presenceReactions rep s = s := by simp [presenceReactions, hp]
  simp only [handOn, ha, if_true, reactApplied, hnone, hholds, hreact, keepFeeding_frame]

/-- A report of another station's frame that breaks no round: a COLLECTING station looks at its collection and at the images (R86, R87). -/
theorem stationReport_collects (ho : rep.own = false) (hcalm : .roundRestarted ∉ rep.events ∧ .roundDissolved ∉ rep.events)
    (hd : rep.desync = false) (hcol : s.sc.state = .collecting) :
    stationReport rep s = if rep.imageFailure then drop .desync (collectionDone s) else collectionDone s := by
  obtain ⟨hrestarted, hdissolved⟩ := hcalm
  have hevents : (rep.events.any fun e => e == .roundRestarted || e == .roundDissolved) = false := by
    rw [List.any_eq_false]
    intro e he
    simp only [Bool.or_eq_true, beq_iff_eq, not_or]
    exact ⟨fun h => hrestarted (h ▸ he), fun h => hdissolved (h ▸ he)⟩
  have hround : roundBroken rep s = s := by
    unfold roundBroken
    rw [hcol]
    dsimp only
    rw [hevents, if_neg (by decide)]
  simp [stationReport, ownDepart, ownEnrol, ho, hround, hd]

/-- A collection that is not complete goes on. -/
theorem handOn_page_goesOn (hcol : w.sc.state = .collecting) (hlow : w.tc.collected ≤ 15) :
    (handOn (s.pageReport f) w).au = w.au ∧ (handOn (s.pageReport f) w).sc = w.sc ∧ (handOn (s.pageReport f) w).tc = w.tc ∧
    (handOn (s.pageReport f) w).hp = w.hp := by
  obtain ⟨hau, hsc, htc, -, -, -, -, hhp, -⟩ := handOn_plain w (pageReport_plain s f) rfl rfl (by rw [hcol]; rfl) fun _ => hlow
  exact ⟨hau, hsc, htc, hhp⟩

/-- The sixteenth page completes the collection (R87). -/
theorem handOn_page_completes (hcol : w.sc.state = .collecting) (hlast : w.tc.collected = 16) :
    (handOn (s.pageReport f) w).au = w.au ∧ (handOn (s.pageReport f) w).sc = w.sc.inState .enrolling ∧
    (handOn (s.pageReport f) w).tc = w.tc ∧ (handOn (s.pageReport f) w).hp = w.hp ∧
    newEntry .enrol ∈ (handOn (s.pageReport f) w).oq.entries := by
  have hdone : collectionDone w = placeEntry .enrol (enterState .enrolling w) := if_pos ⟨hcol, hlast⟩
  have hreport : stationReport (s.pageReport f) w = placeEntry .enrol (enterState .enrolling w) := by
    rw [stationReport_collects rfl (pageRound_events f _) rfl hcol, hdone]
    rfl
  have hsc : (placeEntry .enrol (enterState .enrolling w)).sc = w.sc.inState .enrolling := enterState_sc w .enrolling
  have hplaced : newEntry .enrol ∈ (placeEntry .enrol (enterState .enrolling w)).oq.entries := by simp [placeEntry]
  rw [handOn_silent (rep := s.pageReport f) rfl rfl (by rw [hcol]; rfl), hreport, hsc,
    if_pos (show voting (w.sc.inState .enrolling).state = true from rfl)]
  refine ⟨?_, by simpa using hsc, ?_, by simp, (enrol_stays hplaced).2⟩
  · have hv : voting w.sc.state = true := by rw [hcol]; rfl
    simp [enterState_au, show voting .enrolling = true from rfl, hv]
  · simp [enterState_tc, show voting .enrolling = true from rfl]

/-- What an installed page leaves, complete or not (R86, R87). -/
theorem handOn_page (hcol : w.sc.state = .collecting) (hle : w.tc.collected ≤ 16) :
    (handOn (s.pageReport f) w).au = w.au ∧ (handOn (s.pageReport f) w).tc = w.tc ∧ (handOn (s.pageReport f) w).hp = w.hp ∧
    (w.tc.collected < 16 → (handOn (s.pageReport f) w).sc = w.sc) ∧
    (w.tc.collected = 16 → (handOn (s.pageReport f) w).sc = w.sc.inState .enrolling ∧
      newEntry .enrol ∈ (handOn (s.pageReport f) w).oq.entries) := by
  rcases Nat.lt_or_eq_of_le hle with hlow | hlast
  · obtain ⟨hau, hsc, htc, hhp⟩ := handOn_page_goesOn (s := s) (f := f) hcol (Nat.le_of_lt_succ hlow)
    exact ⟨hau, htc, hhp, fun _ => hsc, fun hlast => by omega⟩
  · obtain ⟨hau, hsc, htc, hhp, hentry⟩ := handOn_page_completes (s := s) (f := f) hcol hlast
    exact ⟨hau, htc, hhp, fun hlow => by omega, fun _ => ⟨hsc, hentry⟩⟩

/-- The table and the marks once a page is installed (R24, R86). -/
theorem pageInstalled_locks (hn : (byteAt p 1).toNat ≤ 16) (l : Lock) :
    (∀ j : Fin 4, l.val = 4 * ((byteAt p 1).toNat - 1) + j.val →
      (s.pageInstalled p).au.replica.table[l] = entryOfImage (imageAt p j.val) ∧ (s.pageInstalled p).tc.uncollected[l] = false) ∧
    ((∀ j : Fin 4, l.val ≠ 4 * ((byteAt p 1).toNat - 1) + j.val) →
      (s.pageInstalled p).au.replica.table[l] = s.au.replica.table[l] ∧
      (s.pageInstalled p).tc.uncollected[l] = s.tc.uncollected[l]) := by
  obtain ⟨hentry, hother⟩ := pageLocks_written hn (fun j => entryOfImage (imageAt p j)) s.au.replica.table l
  obtain ⟨hmark, hstays⟩ := pageLocks_written hn (fun _ => false) s.tc.uncollected l
  exact ⟨fun j hj => ⟨hentry j hj, hmark j hj⟩, fun hno => ⟨hother hno, hstays hno⟩⟩

/-- An image that fails drops the station (R86, R94). -/
theorem handOn_page_fails (hcol : w.sc.state = .collecting) (hlow : w.tc.collected ≤ 15) :
    (handOn { s.pageReport f with imageFailure := true } w).offBus ∧
    (handOn { s.pageReport f with imageFailure := true } w).hp
      = w.hp.noticed (revokedNotices w.au.replica.busSeq w.rt ++ [stationNoticeOf .desynced]) ∧
    (handOn { s.pageReport f with imageFailure := true } w).sc.state = if autoRejoin w then .listen else .ready := by
  have hdone : collectionDone w = w := collectionDone_same fun _ => by omega
  have hreport : stationReport { s.pageReport f with imageFailure := true } w = drop .desync w := by
    rw [stationReport_collects rfl (pageRound_events f _) rfl hcol, if_pos rfl, hdone]
  obtain ⟨hoff, hhp, hsc, -⟩ := drop_dropped w .desync (by rw [hcol]; rfl)
  have hstate : (drop .desync w).sc.state = dropState .desync w := by rw [hsc]; rfl
  obtain ⟨hpresent, hvoting, -⟩ := dropState_idle w .desync
  rw [handOn_silent (rep := { s.pageReport f with imageFailure := true }) rfl rfl (by rw [hcol]; rfl), hreport, hstate, hvoting,
    if_neg (by decide)]
  have hfed : (keepFeeding (drop .desync w)).hp = (drop .desync w).hp ∧ (keepFeeding (drop .desync w)).sc = (drop .desync w).sc := by
    simp
  refine ⟨hoff.fed (by rw [hstate, hpresent]), hfed.1.trans hhp, ?_⟩
  rw [hfed.2, hstate, dropState_desync, hcol]
  simp

/-- Settles O35: by the check of the four images and by the pages collected before. -/
theorem pageFrameCollected : Obligations.PageFrameCollected := by
  intro s rd f h hk hstep hcol hq hfirst
  have hnumber : s.au.replica.transfer.nextPage = (byteAt f.payload 1).toNat := hq.2.2.2
  have hn := receive_page_number h.1.2.2 hk
  have hexec := exec_pageCollected h hk hstep hcol hq (by omega)
  have hroster : (s.pageHeard rd f).au.replica.roster = s.au.replica.roster := rfl
  have htaken : s.pageTaken f (s.pageHeard rd f).au.replica.transfer := pageRound_taken s f
  rw [hnumber]
  refine ⟨fun hpass => ?_, fun hfail => ?_⟩
  · rw [installPage_passes _ (by rwa [hroster])] at hexec
    have hcount : ((s.pageHeard rd f).pageInstalled f.payload).tc.collected = s.tc.collected + 1 := rfl
    obtain ⟨hau, htc, hhp, hgoesOn, hcompletes⟩ := handOn_page (s := s) (f := f) (w := (s.pageHeard rd f).pageInstalled f.payload) hcol
      (by rw [hcount]; exact Nat.succ_le_succ (h.2.2 hcol))
    refine ⟨_, hexec, by rw [hau]; rfl, by rw [hau]; rfl, by rw [hau]; exact htaken, by rw [htc, hcount], hhp, fun l => ?_,
      fun hlow => hgoesOn (by rw [hcount]; omega), fun hlast => hcompletes (by rw [hcount, hlast])⟩
    rw [hau, htc]
    exact pageInstalled_locks (s := s.pageHeard rd f) hn l
  · rw [installPage_fails _ (by rwa [hroster])] at hexec
    obtain ⟨hoff, hhp, hstate⟩ := handOn_page_fails (s := s) (f := f) (w := s.pageHeard rd f) hcol (h.2.2 hcol)
    exact ⟨_, hexec, hoff, hhp, hstate⟩

end Sys2Proof.Machine
end

section
/-! PROOFS. The grant lines (R128 to R130): when a line is active, and the end of a guard's time. -/

namespace Sys2Proof.Machine

variable {s t : State} {l : Lock}

/-! ### HELD locks and active lines -/

theorem lockHeld_iff : lockHeld s l = true ↔ ∃ r, s.rt.slots[tierOf l] = some r ∧ r.lock = l ∧ r.state = .held := by
  have hrecord : lockHeld s l = true ↔ ∃ r, recordFor s l = some r ∧ r.state = .held := by
    unfold lockHeld
    cases recordFor s l <;> simp
  simp only [hrecord, recordFor_some, and_assoc]

/-- A line with an elapsed guard is active exactly at an unfenced MEMBER whose record of its lock is HELD (R129). -/
theorem grantActive_elapsed {n : GrantLine} (h : s.gl.guards[n] = .elapsed) :
    grantActive s n = true ↔ s.sc.state = .member ∧ s.pm.contact = false ∧ s.pm.quorum = false ∧
      ∃ l r, grantBinding s n = some l ∧ s.rt.slots[tierOf l] = some r ∧ r.lock = l ∧ r.state = .held := by
  cases hbind : grantBinding s n with
  | none => simp [grantActive, hbind]
  | some k =>
    have hheld : (∃ l r, some k = some l ∧ s.rt.slots[tierOf l] = some r ∧ r.lock = l ∧ r.state = .held) ↔
        lockHeld s k = true := by
      rw [lockHeld_iff]
      exact ⟨fun ⟨l, r, hl, hr⟩ => by cases hl; exact ⟨r, hr⟩, fun ⟨r, hr⟩ => ⟨k, r, rfl, hr⟩⟩
    rw [hheld]
    simp [grantActive, fenced, hbind, h, and_assoc]

/-! ### The end of a guard's time -/

/-- The station once a line's guard time is over: the lines bound to the same lock elapse with it (R128, R130). -/
def State.linesElapsed (s : State) (n : GrantLine) : State :=
  s.withGl { guards := tabulate fun k =>
    if grantBinding s k = grantBinding s n then elapsedGuard s.gl.guards[k] else s.gl.guards[k] }

theorem linesElapsed_get (s : State) (n k : GrantLine) : (s.linesElapsed n).gl.guards[k] =
    if grantBinding s k = grantBinding s n then elapsedGuard s.gl.guards[k] else s.gl.guards[k] :=
  tabulate_get _ k

theorem exec_guardElapsed {n : GrantLine} {a : Nat} (h : s.gl.guards[n] = .running a) :
    exec (.guardElapsed n) s = .next (s.linesElapsed n) := by
  simp only [exec, execGuardElapsed, h]
  rfl

theorem elapsedGuard_elapsed {g : Guard} (h : g ≠ .stopped) : elapsedGuard g = .elapsed := by
  cases g with
  | stopped => exact absurd rfl h
  | running a => rfl
  | elapsed => rfl

/-- Settles O49: the lines bound alike elapse together, and the activity of each is R129's. -/
theorem guardElapses : Obligations.GuardElapses := by
  intro s n a hrun
  refine ⟨s.linesElapsed n, exec_guardElapsed hrun, rfl, fun k =>
    ⟨fun hother => ?_, fun hsame hstopped => ?_, fun hsame hon => ?_⟩⟩
  · rw [linesElapsed_get, if_neg hother]
  · rw [linesElapsed_get, if_pos hsame, hstopped]
    rfl
  · have helapsed : (s.linesElapsed n).gl.guards[k] = .elapsed := by
      rw [linesElapsed_get, if_pos hsame, elapsedGuard_elapsed hon]
    refine ⟨helapsed, ?_⟩
    rw [← hsame]
    exact grantActive_elapsed helapsed

end Sys2Proof.Machine
end

section
/-! PROOFS. The law of the guards (R128, R129, R130): a guard that is not STOPPED belongs to a HELD lock of an unfenced MEMBER, and lines
bound alike have guards alike. An operation stops every guard, sets the guards of HELD locks, or leaves guards, bindings and fence alone and
keeps the HELD records; a change of the fence set is taken on the guards one change at a time. -/

namespace Sys2Proof.Machine

variable {s t : State} {l : Lock} {r : HoldRecord} {cut : Bool}

/-! ### HELD locks -/

/-- Every lock that is HELD stays HELD. -/
def State.KeepsHeld (s t : State) : Prop := ∀ l, lockHeld s l = true → lockHeld t l = true

namespace State.KeepsHeld

theorem of_slots (h : ∀ (i : Tier) r, s.rt.slots[i] = some r → r.state = .held →
    ∃ x, t.rt.slots[i] = some x ∧ x.lock = r.lock ∧ x.state = .held) : s.KeepsHeld t := by
  intro l hl
  obtain ⟨r, hr, rfl, hheld⟩ := lockHeld_iff.mp hl
  exact lockHeld_iff.mpr (h _ r hr hheld)

theorem of_rt (h : t.rt = s.rt) : s.KeepsHeld t := of_slots fun _ r hr hheld => ⟨r, h ▸ hr, rfl, hheld⟩

/-- One slot changes, and a HELD record in it is replaced by a HELD record of the same lock. -/
theorem of_slot {i : Tier} {y : Option HoldRecord} (hslots : t.rt.slots = putAt s.rt.slots i y)
    (hy : ∀ r, s.rt.slots[i] = some r → r.state = .held → ∃ x, y = some x ∧ x.lock = r.lock ∧ x.state = .held) :
    s.KeepsHeld t := by
  refine of_slots fun j r hr hheld => ?_
  rw [hslots, putAt_get]
  split
  next hij => exact hy r (hij ▸ hr) hheld
  next => exact ⟨r, hr, rfl, hheld⟩

/-- The slot of a record that is not HELD changes. -/
theorem of_other (hr : recordFor s l = some r) (hnot : r.state ≠ .held) {y : Option HoldRecord}
    (hslots : t.rt.slots = putAt s.rt.slots (tierOf l) y) : s.KeepsHeld t :=
  of_slot hslots fun x hx hheld => by
    rw [(recordFor_some.mp hr).1] at hx
    exact absurd (Option.some.inj hx ▸ hheld) hnot

/-- A record is replaced by one of its lock and state. -/
theorem of_replaced (hr : recordFor s l = some r) {x : HoldRecord} (hslots : t.rt.slots = putAt s.rt.slots (tierOf l) (some x))
    (hlock : x.lock = r.lock) (hstate : r.state = .held → x.state = .held) : s.KeepsHeld t :=
  of_slot hslots fun y hy hheld => by
    rw [(recordFor_some.mp hr).1] at hy
    cases hy
    exact ⟨x, rfl, hlock, hstate hheld⟩

end State.KeepsHeld

/-- Whatever becomes of a record, the other locks that are HELD stay HELD. -/
theorem lockHeld_other (hr : recordFor s l = some r) {y : Option HoldRecord}
    (hslots : t.rt.slots = putAt s.rt.slots (tierOf l) y) {k : Lock} (hk : k ≠ l) (hheld : lockHeld s k = true) :
    lockHeld t k = true := by
  obtain ⟨x, hx, hxk, hstate⟩ := lockHeld_iff.mp hheld
  obtain ⟨hslot, hlock⟩ := recordFor_some.mp hr
  have htier : tierOf l ≠ tierOf k := by
    intro heq
    simp only [heq, hx, Option.some.injEq] at hslot
    exact hk (by rw [← hxk, ← hlock, hslot])
  exact lockHeld_iff.mpr ⟨x, by rw [hslots, putAt_get_other _ _ htier, hx], hxk, hstate⟩

/-! ### The law, and changes that keep it -/

theorem grantBinding_congr (h : t.sc.config = s.sc.config) (n : GrantLine) : grantBinding t n = grantBinding s n := by
  simp only [grantBinding, h]

/-- The law of the guards against a fence: cut says that the guards stand as for a fenced station. While the changes of the fence set in one
report are taken, it runs behind the presence state (R62, R71). -/
structure State.LinesLaw (s : State) (cut : Bool) : Prop where
  held : ∀ n : GrantLine, s.gl.guards[n] ≠ .stopped →
    s.sc.state = .member ∧ cut = false ∧ ∃ l, grantBinding s n = some l ∧ lockHeld s l = true
  alike : ∀ n k : GrantLine, grantBinding s n = grantBinding s k → s.gl.guards[n] = s.gl.guards[k]

/-- State.guardsLawful as a statement. -/
def State.GuardsLaw (s : State) : Prop := s.LinesLaw (fenced s)

theorem State.guardsLawful_iff (s : State) : s.guardsLawful = true ↔ s.GuardsLaw := by
  simp only [guardsLawful, List.all_eq_true, List.mem_finRange, true_imp_iff, Bool.and_eq_true, Bool.or_eq_true,
    Bool.not_eq_true', beq_iff_eq, bne_iff_ne, ne_eq]
  constructor
  · intro h
    refine ⟨fun n hn => ?_, fun n k hnk => ((h n).2 k).resolve_left (not_not_intro hnk)⟩
    obtain ⟨⟨hm, hfree⟩, hheld⟩ := (h n).1.resolve_left hn
    split at hheld
    next l hl => exact ⟨hm, hfree, l, hl, hheld⟩
    next => cases hheld
  · intro h n
    refine ⟨Decidable.or_iff_not_imp_left.mpr fun hn => ?_, fun k => Decidable.or_iff_not_imp_left.mpr fun hnk => ?_⟩
    · obtain ⟨hm, hfree, l, hl, hheld⟩ := h.held n hn
      simp [hm, hfree, hl, hheld]
    · exact h.alike n k (not_not.mp hnk)

namespace State.LinesLaw

/-- With every guard STOPPED the law asks nothing. -/
theorem of_stopped (h : s.gl = .stopped) (cut : Bool) : s.LinesLaw cut := by
  have hstopped (n : GrantLine) : s.gl.guards[n] = .stopped := by simp [h, GrantUnit.stopped]
  exact ⟨fun n hn => absurd (hstopped n) hn, fun n k _ => by rw [hstopped, hstopped]⟩

/-- Where the law has no line to speak of, every guard is STOPPED. -/
theorem stopped (h : s.LinesLaw cut) (hno : s.sc.state = .member → cut = true) : s.gl = .stopped := by
  have hguards : s.gl.guards = GrantUnit.stopped.guards := table_ext fun n => by
    by_contra hn
    obtain ⟨hm, hcut, -⟩ := h.held n (by simpa [GrantUnit.stopped] using hn)
    simp [hno hm] at hcut
  exact congrArg GrantUnit.mk hguards

theorem of_kept (h : s.LinesLaw cut) (hgl : t.gl = s.gl) (hstate : t.sc.state = s.sc.state)
    (hconfig : t.sc.config = s.sc.config) (hheld : s.KeepsHeld t) : t.LinesLaw cut where
  held n hn := by
    obtain ⟨hm, hcut, l, hl, hlock⟩ := h.held n (hgl ▸ hn)
    exact ⟨hstate.trans hm, hcut, l, (grantBinding_congr hconfig n).trans hl, hheld l hlock⟩
  alike n k hnk := by
    rw [grantBinding_congr hconfig, grantBinding_congr hconfig] at hnk
    rw [hgl, h.alike n k hnk]

end State.LinesLaw

namespace State.GuardsLaw

theorem of_stopped (h : s.gl = .stopped) : s.GuardsLaw := State.LinesLaw.of_stopped h _

/-- Outside MEMBER every guard is STOPPED (R130). -/
theorem stopped (h : s.GuardsLaw) (hm : s.sc.state ≠ .member) : s.gl = .stopped :=
  State.LinesLaw.stopped h fun hs => absurd hs hm

/-- Guards, bindings and fence stay, and so do the HELD records. -/
theorem of_kept (h : s.GuardsLaw) (hgl : t.gl = s.gl) (hstate : t.sc.state = s.sc.state) (hconfig : t.sc.config = s.sc.config)
    (hfence : fenced t = fenced s) (hheld : s.KeepsHeld t) : t.GuardsLaw := by
  unfold State.GuardsLaw
  rw [hfence]
  exact State.LinesLaw.of_kept h hgl hstate hconfig hheld

/-- Only the hold list changes, and the HELD records stay. -/
theorem of_held (h : s.GuardsLaw) (hgl : t.gl = s.gl) (hsc : t.sc = s.sc) (hpm : t.pm = s.pm) (hheld : s.KeepsHeld t) :
    t.GuardsLaw :=
  h.of_kept hgl (by rw [hsc]) (by rw [hsc]) (by simp only [fenced, hpm]) hheld

theorem of_eq (h : s.GuardsLaw) (hgl : t.gl = s.gl) (hsc : t.sc = s.sc) (hpm : t.pm = s.pm) (hrt : t.rt = s.rt) :
    t.GuardsLaw := h.of_held hgl hsc hpm (.of_rt hrt)

end State.GuardsLaw

/-! ### Guards set -/

theorem setGuards_get (p : Lock → Bool) (x : Guard) (s : State) (n : GrantLine) :
    (setGuards p x s).gl.guards[n] = if (grantBinding s n).any p then x else s.gl.guards[n] := by
  simp only [setGuards, State.withGl_gl, tabulate_get]
  cases grantBinding s n <;> simp

/-- The guards of HELD locks of a MEMBER take one value (R64, R130). -/
theorem setGuards_linesLaw {p : Lock → Bool} (x : Guard) (hm : s.sc.state = .member)
    (hp : ∀ l, p l = true → lockHeld s l = true) (h : s.LinesLaw cut) : (setGuards p x s).LinesLaw false where
  held n hn := by
    rw [setGuards_get] at hn
    refine ⟨hm, rfl, ?_⟩
    split at hn
    next hset =>
      obtain ⟨l, hl, hpl⟩ := (Option.any_eq_true _ _).mp hset
      exact ⟨l, hl, hp l hpl⟩
    next => exact (h.held n hn).2.2
  alike n k hnk := by
    have hnk' : grantBinding s n = grantBinding s k := hnk
    rw [setGuards_get, setGuards_get, hnk', h.alike n k hnk']

theorem startGuards_guardsLaw (hheld : lockHeld s l = true) (h : s.GuardsLaw) : (startGuards l s).GuardsLaw := by
  unfold startGuards
  split
  next hfree =>
    have hset : (setGuards (· == l) (startedGuard s) s).LinesLaw false :=
      setGuards_linesLaw _ hfree.1 (fun k hk => by rwa [beq_iff_eq.mp hk]) h
    rwa [← hfree.2] at hset
  next => exact h

/-- One change of the fence set: the guards stop at a fence, and those of the HELD locks restart at an unfence (R64, R130). -/
theorem fenceChanged_linesLaw (a b : Bool × Bool) (hm : s.sc.state = .member) (h : s.LinesLaw (a.1 || a.2)) :
    (fenceChanged a b s).LinesLaw (b.1 || b.2) := by
  have hnoticed : (fenceNotices a b s).LinesLaw (a.1 || a.2) := h.of_kept (by simp) (by simp) (by simp) (.of_rt (by simp))
  unfold fenceChanged fenceGuards
  split
  next hsame => rwa [← hsame]
  next =>
    split
    next => exact .of_stopped rfl _
    next hfree =>
      rw [Bool.eq_false_of_not_eq_true hfree]
      exact setGuards_linesLaw _ (by simpa using hm) (fun _ hl => hl) hnoticed

/-! ### The Request Tracker -/

/-- The lines of a record that leaves HELD stop with it; the others keep their locks (R132). -/
theorem yieldRecord_guardsLaw (why : Reason) (hr : recordFor s l = some r) (h : s.GuardsLaw) :
    (yieldRecord why r s).GuardsLaw := by
  obtain rfl := (recordFor_some.mp hr).2
  obtain ⟨hslots, -, hguards, hrest⟩ := yieldRecord_yields why r s
  generalize yieldRecord why r s = t at *
  have hsc : t.sc = s.sc := by rw [hrest]
  have hfence : fenced t = fenced s := by rw [hrest]; rfl
  have hbind : ∀ n, grantBinding t n = grantBinding s n := grantBinding_congr (by rw [hsc])
  constructor
  · intro n hn
    rw [hguards] at hn
    split at hn
    next => exact absurd rfl hn
    next hother =>
      obtain ⟨hm, hfree, k, hk, hheld⟩ := h.held n hn
      have hkl : k ≠ r.lock := fun heq => hother (heq ▸ hk)
      exact ⟨by rw [hsc, hm], hfence.trans hfree, k, (hbind n).trans hk, lockHeld_other hr hslots hkl hheld⟩
  · intro n k hnk
    rw [hbind, hbind] at hnk
    rw [hguards, hguards, hnk, h.alike n k hnk]

theorem placeClaim_guardsLaw (o : Origin) (m : Mode) (limit : Byte) (habove : aboveOccupied s l = true) (h : s.GuardsLaw) :
    (placeClaim o l m limit s).GuardsLaw := by
  have hslots : (placeClaim o l m limit s).rt.slots = putAt s.rt.slots (tierOf l) _ := rfl
  exact h.of_held (by simp) (by simp) (by simp) (.of_slot hslots fun r hr _ =>
    absurd (aboveOccupied_iff.mp habove _ r hr) (lt_irrefl _))

theorem withdrawRecord_guardsLaw (hr : recordFor s l = some r) (h : s.GuardsLaw) : (withdrawRecord r s).GuardsLaw := by
  obtain rfl := (recordFor_some.mp hr).2
  unfold withdrawRecord
  split
  next hstate =>
    split
    · exact h.of_held rfl rfl rfl (.of_other hr (by simp [hstate]) rfl)
    · exact h.of_held (by simp) (by simp) (by simp) (.of_other hr (by simp [hstate]) (y := none) (by simp [setSlot]))
  next hstate => exact h.of_held rfl rfl rfl (.of_other hr (by simp [hstate]) rfl)
  next => exact h

theorem evaluatePin_guardsLaw (p : Pin) (h : s.GuardsLaw) : (evaluatePin p s).GuardsLaw := by
  unfold evaluatePin
  (repeat' split) <;> try exact h
  · unfold pinClaim
    split
    next hopen => exact placeClaim_guardsLaw _ _ _ (Bool.and_eq_true_iff.mp hopen).1 h
    next => exact h.of_eq (by simp) (by simp) (by simp) (by simp)
  next hr _ _ => exact yieldRecord_guardsLaw _ hr h
  next hr _ _ => exact withdrawRecord_guardsLaw hr h

theorem evaluateOrigin_guardsLaw (o : Origin) (h : s.GuardsLaw) : (evaluateOrigin o s).GuardsLaw := by
  cases o with
  | host => exact h
  | req p => exact evaluatePin_guardsLaw p h

/-- The lines of a lock start once its record is HELD (R113, R130). -/
theorem enterHeld_guardsLaw (k : NoticeKind) (mark : Bool) (g : Generation) (hr : recordFor s l = some r) (h : s.GuardsLaw) :
    (enterHeld k mark g r s).GuardsLaw := by
  obtain rfl := (recordFor_some.mp hr).2
  unfold enterHeld
  dsimp only
  generalize hw : setSlot (tierOf r.lock) _ (cancelRequest (tierOf r.lock) s) = w
  obtain ⟨x, hslots, hlock, hstate⟩ : ∃ x : HoldRecord, w.rt.slots = putAt s.rt.slots (tierOf r.lock) (some x) ∧
      x.lock = r.lock ∧ x.state = .held := by
    rw [← hw]
    exact ⟨_, rfl, rfl, rfl⟩
  have hlaw : w.GuardsLaw := by
    refine h.of_held ?_ ?_ ?_ (.of_replaced hr hslots hlock fun _ => hstate) <;> simp [← hw]
  have hheld : lockHeld w r.lock = true := lockHeld_iff.mpr ⟨x, by rw [hslots, putAt_get_self], hlock, hstate⟩
  exact evaluateOrigin_guardsLaw _ ((startGuards_guardsLaw hheld hlaw).of_eq (by simp) (by simp) (by simp) (by simp))

theorem emptySlot_guardsLaw (n : Option (NoticeKind × Option Generation × Qualifier)) (hr : recordFor s l = some r)
    (hnot : r.state ≠ .held) (h : s.GuardsLaw) : (emptySlot n r s).GuardsLaw := by
  obtain rfl := (recordFor_some.mp hr).2
  have hempty : (setSlot (tierOf r.lock) none (cancelRequest (tierOf r.lock) s)).GuardsLaw :=
    h.of_held (by simp) (by simp) (by simp) (.of_other hr hnot (y := none) (by simp [setSlot]))
  refine evaluateOrigin_guardsLaw _ ?_
  cases n with
  | none => exact hempty
  | some x => exact hempty.of_eq (by simp) (by simp) (by simp) (by simp)

theorem enterWaiting_guardsLaw (g : Generation) (hr : recordFor s l = some r) (hnot : r.state ≠ .held) (h : s.GuardsLaw) :
    (enterWaiting g r s).GuardsLaw := by
  obtain rfl := (recordFor_some.mp hr).2
  exact evaluateOrigin_guardsLaw _ (h.of_held (by simp) (by simp) (by simp)
    (.of_other hr hnot (y := some { r with state := .waiting }) (by simp [setSlot])))

theorem enterWithdrawing_guardsLaw (hr : recordFor s l = some r) (hnot : r.state ≠ .held) (h : s.GuardsLaw) :
    (enterWithdrawing r s).GuardsLaw := by
  obtain rfl := (recordFor_some.mp hr).2
  unfold enterWithdrawing
  split <;> exact h.of_held rfl rfl rfl (.of_other hr hnot rfl)

theorem withdrawLeft_guardsLaw (hr : recordFor s l = some r) (h : s.GuardsLaw) : (withdrawLeft r s).GuardsLaw := by
  obtain rfl := (recordFor_some.mp hr).2
  exact h.of_held (by simp) (by simp) (by simp) (.of_replaced hr withdrawLeft_taken.1 rfl id)

theorem takeGrant_guardsLaw (g : Generation) (hr : recordFor s l = some r) (h : s.GuardsLaw) : (takeGrant g r s).GuardsLaw := by
  unfold takeGrant
  split
  case h_5 => exact h
  all_goals exact enterHeld_guardsLaw _ _ _ hr h

theorem takeOutcome_guardsLaw (o : LockOutcome) (h : s.GuardsLaw) : (takeOutcome o s).GuardsLaw := by
  cases hr : recordFor s o.lock with
  | none => simpa only [takeOutcome, hr] using h
  | some r =>
    simp only [takeOutcome, hr]
    split
    case h_1 => exact takeGrant_guardsLaw _ hr h
    case h_2 hstate | h_10 hstate => exact enterWaiting_guardsLaw _ hr (by simp [hstate]) h
    case h_3 hstate | h_11 hstate => exact enterWithdrawing_guardsLaw hr (by simp [hstate]) h
    case h_6 hstate =>
      have hr' : recordFor (ignoreOrigin r.origin s) o.lock = some r := (recordFor_congr (by simp) _).trans hr
      exact emptySlot_guardsLaw _ hr' (by simp [hstate]) (h.of_eq (by simp) (by simp) (by simp) (by simp))
    case h_8 | h_9 => exact enterHeld_guardsLaw _ _ _ hr h
    case h_14 | h_15 =>
      split
      · exact withdrawLeft_guardsLaw hr h
      · exact h
    case h_16 hstate => split <;> exact emptySlot_guardsLaw _ hr (by simp [hstate]) h
    case h_18 => exact h
    all_goals
      rename_i hstate
      exact emptySlot_guardsLaw _ hr (by simp [hstate]) h

theorem takeOutcomes_guardsLaw (outcomes : List LockOutcome) (h : s.GuardsLaw) : (takeOutcomes outcomes s).GuardsLaw := by
  unfold takeOutcomes
  generalize outcomes.filter (fun o => o.subject == s.station) = m
  induction m generalizing s with
  | nil => exact h
  | cons o m ih => exact ih (takeOutcome_guardsLaw o h)

theorem requestReturned_guardsLaw (abandoned : Bool) (n : Nat) (c : Content) (h : s.GuardsLaw) :
    (requestReturned abandoned n c s).GuardsLaw := by
  unfold requestReturned
  (repeat' split) <;> try exact h.of_eq rfl rfl rfl rfl
  next hr _ hstate =>
    exact emptySlot_guardsLaw _ ((recordFor_congr (by simp) _).trans hr) (by simp [hstate])
      (h.of_eq (by simp) (by simp) (by simp) (by simp))
  next hr _ hstate _ =>
    exact emptySlot_guardsLaw _ ((recordFor_congr (by simp) _).trans hr) (by simp [hstate])
      (h.of_eq (by simp) (by simp) (by simp) (by simp))
  next hr _ _ =>
    exact withdrawLeft_guardsLaw ((recordFor_congr (by simp) _).trans hr) (h.of_eq (by simp) (by simp) (by simp) (by simp))
  next hr _ _ =>
    exact withdrawLeft_guardsLaw ((recordFor_congr (by simp) _).trans hr) (h.of_eq (by simp) (by simp) (by simp) (by simp))

theorem dropRequest_guardsLaw (o : Owner) (h : s.GuardsLaw) : (dropRequest o s).GuardsLaw := by
  unfold dropRequest
  (repeat' split) <;> try exact h
  next r hr =>
    refine h.of_held rfl rfl rfl (.of_slot rfl fun x hx hheld => ?_)
    rw [hr] at hx
    cases hx
    exact ⟨_, rfl, rfl, hheld⟩

/-! ### The Station Controller -/

theorem enterState_guardsLaw {x : StationState} (hx : x ≠ .member) (s : State) : (enterState x s).GuardsLaw :=
  .of_stopped (by simp [enterState_gl, hx])

theorem drop_guardsLaw (c : DropCause) (h : s.GuardsLaw) : (drop c s).GuardsLaw := by
  cases hd : dropsIn c s.sc.state
  · simpa [drop, hd] using h
  · exact .of_stopped (drop_dropped s c hd).1.2.2.2.2.1

theorem examinePins_guardsLaw (h : s.GuardsLaw) : (examinePins s).GuardsLaw := by
  have hpins (ps : List Pin) (w : State) (hw : w.GuardsLaw) : (ps.foldl (fun t p => evaluatePin p t) w).GuardsLaw := by
    induction ps generalizing w with
    | nil => exact hw
    | cons p ps ih => exact ih _ (evaluatePin_guardsLaw p hw)
  exact hpins _ _ (h.of_eq rfl rfl rfl rfl)

/-- A station comes to MEMBER with every guard STOPPED (R130). -/
theorem enterMember_guardsLaw (k : NoticeKind) (h : s.gl = .stopped) : (enterMember k s).GuardsLaw :=
  examinePins_guardsLaw (.of_stopped (by simp [h]))

theorem found_guardsLaw (h : s.gl = .stopped) : (found s).GuardsLaw :=
  enterMember_guardsLaw _ (by simp [enterState_gl, h])

theorem ask_guardsLaw (s : State) : (ask s).GuardsLaw := .of_stopped (by simp [ask, enterState_gl])

theorem giveUpJoin_guardsLaw (k : NoticeKind) (m : Option Station) (s : State) : (giveUpJoin k m s).GuardsLaw :=
  .of_stopped (by simp [giveUpJoin, enterState_gl])

theorem otherFound_guardsLaw (f : Frame) (s : State) : (otherFound f s).GuardsLaw := by
  unfold otherFound
  split
  · exact ask_guardsLaw s
  · exact giveUpJoin_guardsLaw _ _ s

theorem observePageZero_guardsLaw (f : Frame) (h : s.GuardsLaw) : (observePageZero f s).GuardsLaw := by
  unfold observePageZero
  (repeat' split) <;> try exact h
  · exact .of_stopped (by simp [enterCollecting, enterState_gl])
  · exact h.of_kept rfl rfl rfl rfl (.of_rt rfl)

theorem observe_guardsLaw (own : Bool) (f : Frame) (h : s.GuardsLaw) : (observe own f s).GuardsLaw := by
  unfold observe
  (repeat' split) <;> try exact h
  · exact otherFound_guardsLaw f s
  · exact ask_guardsLaw s
  next hs _ _ => exact found_guardsLaw (h.stopped (by simp [hs]))
  · exact otherFound_guardsLaw f _
  · exact enterState_guardsLaw (by simp) s
  · exact observePageZero_guardsLaw f h

theorem joinAbandoned_guardsLaw (c : Content) (h : s.GuardsLaw) : (joinAbandoned c s).GuardsLaw := by
  unfold joinAbandoned
  split <;> try exact giveUpJoin_guardsLaw _ _ s
  exact h

theorem roundOut_guardsLaw (s : State) : (roundOut s).GuardsLaw := by
  unfold roundOut
  dsimp only
  split
  · exact enterState_guardsLaw (by simp) _
  · exact giveUpJoin_guardsLaw _ _ _

/-! ### The reactions to a report -/

theorem ownDepart_guardsLaw (rep : Report) (h : s.GuardsLaw) : (ownDepart rep s).GuardsLaw := by
  unfold ownDepart
  (repeat' split) <;> try exact h
  · exact .of_stopped (by simp [enterState_gl])
  next hs _ => exact .of_stopped (by simp [h.stopped (by simp [hs])])

theorem ownEnrol_guardsLaw (rep : Report) (h : s.GuardsLaw) : (ownEnrol rep s).GuardsLaw := by
  unfold ownEnrol
  split
  next henrol =>
    have hstopped : s.gl = .stopped := h.stopped (by simp [henrol.2])
    split
    · exact enterMember_guardsLaw _ (by simp [enterState_gl, hstopped])
    · exact .of_stopped (by simp [hstopped])
    · exact h
  next => exact h

theorem roundBroken_guardsLaw (rep : Report) (h : s.GuardsLaw) : (roundBroken rep s).GuardsLaw := by
  unfold roundBroken
  (repeat' split) <;> try exact h
  all_goals exact enterState_guardsLaw (by simp) s

theorem collectionDone_guardsLaw (h : s.GuardsLaw) : (collectionDone s).GuardsLaw := by
  unfold collectionDone
  split
  · exact .of_stopped (by simp [enterState_gl])
  · exact h

theorem stationReport_guardsLaw (rep : Report) (h : s.GuardsLaw) : (stationReport rep s).GuardsLaw := by
  have hdone := collectionDone_guardsLaw (roundBroken_guardsLaw rep (ownEnrol_guardsLaw rep (ownDepart_guardsLaw rep h)))
  unfold stationReport
  dsimp only
  split
  · exact drop_guardsLaw _ hdone
  · exact hdone

theorem departHolds_guardsLaw (rep : Report) (h : s.GuardsLaw) : (departHolds rep s).GuardsLaw := by
  unfold departHolds
  split
  next hd => exact .of_stopped (by simp [h.stopped (by simp [hd.2.2.2])])
  next => exact h

/-- The fence set changes at up to three steps of a report, and step 5 takes these changes on the guards in their order (R62, R64, R71). -/
theorem presenceReport_guardsLaw (rep : Report) (hs : s.StateLaw) (h : s.GuardsLaw) : (presenceReport rep s).GuardsLaw := by
  by_cases hm : s.sc.state = .member
  · have hremoved : (removedReport rep (addedReport rep (senderReport rep s))).LinesLaw (fenced s) :=
      State.LinesLaw.of_kept h (by simp) (by simp) (by simp) (.of_rt (by simp))
    have hheard := fenceChanged_linesLaw (fenceSet s) (fenceSet (senderReport rep s)) (by simpa using hm) hremoved
    have hadded := fenceChanged_linesLaw (fenceSet (senderReport rep s)) (fenceSet (addedReport rep (senderReport rep s)))
      (by simpa using hm) hheard
    have hlast := fenceChanged_linesLaw (fenceSet (addedReport rep (senderReport rep s)))
      (fenceSet (removedReport rep (addedReport rep (senderReport rep s)))) (by simpa using hm) hadded
    have hfence : fenced (presenceReport rep s) = fenced (removedReport rep (addedReport rep (senderReport rep s))) := by
      simp [fenced, presenceReport]
    unfold State.GuardsLaw
    rw [hfence]
    exact hlast
  · exact .of_stopped (presenceReport_fence rep hs hm).2.2.2.2

theorem presenceReactions_guardsLaw (rep : Report) (hs : s.StateLaw) (h : s.GuardsLaw) : (presenceReactions rep s).GuardsLaw := by
  unfold presenceReactions
  split
  next =>
    have hreport := presenceReport_guardsLaw rep hs h
    have hdrop : (if ousts rep s then drop .ouster (presenceReport rep s) else presenceReport rep s).GuardsLaw := by
      split
      · exact drop_guardsLaw _ hreport
      · exact hreport
    dsimp only
    refine hdrop.of_eq ?_ ?_ ?_ ?_ <;> (split <;> simp)
  next => exact h

theorem revalidate_guardsLaw (h : s.GuardsLaw) : (revalidate s).GuardsLaw := by
  have hfence : fenced (revalidate s) = fenced s := by
    unfold revalidate
    dsimp only
    (repeat' split) <;> simp [fenced]
  exact h.of_kept (by simp) (by simp) (by simp) hfence (.of_rt (by simp))

theorem keepFeeding_guardsLaw (h : s.GuardsLaw) : (keepFeeding s).GuardsLaw :=
  h.of_eq (by simp) (by simp) (by simp) (by simp)

theorem handOn_guardsLaw (rep : Report) (hs : s.StateLaw) (h : s.GuardsLaw) : (handOn rep s).GuardsLaw := by
  unfold handOn
  split
  · have hdeparted : (departHolds rep (takeOutcomes rep.outcomes s)).StateLaw :=
      departHolds_stateLaw rep ((takeOutcomes_tracks rep.outcomes s).stateLaw hs)
    have hreport := keepFeeding_guardsLaw (stationReport_guardsLaw rep (presenceReactions_guardsLaw rep hdeparted
      (departHolds_guardsLaw rep (takeOutcomes_guardsLaw rep.outcomes h))))
    unfold reactApplied
    dsimp only
    split
    · exact revalidate_guardsLaw hreport
    · exact hreport
  · have hown : (if rep.own ∧ rep.kind = .evict then decideEviction s else s).GuardsLaw := by
      split
      · exact h.of_eq (by simp) (by simp) (by simp) (by simp)
      · exact h
    exact keepFeeding_guardsLaw (stationReport_guardsLaw rep hown)

/-! ### The line -/

theorem takeFrame_guardsLaw (own : Bool) (f : Frame) (h : s.GuardsLaw) : (takeFrame own f s).1.GuardsLaw := by
  have hsc : (takeFrame own f s).1.sc.state = s.sc.state ∧ (takeFrame own f s).1.sc.config = s.sc.config := by
    rcases takeFrame_sc own f s with hsc | ⟨-, hsc⟩ <;> simp [hsc]
  exact h.of_kept (by simp) hsc.1 hsc.2 (by simp [fenced]) (.of_rt (by simp))

theorem ownAccepted_guardsLaw (k : Kind) (h : s.GuardsLaw) : (ownAccepted k s).GuardsLaw := by
  have hfence : fenced (ownAccepted k s) = fenced s := by
    unfold ownAccepted
    dsimp only
    split <;> simp [fenced]
  exact h.of_kept (by simp) (by simp) (by simp) hfence (.of_rt (by simp))

theorem acceptFrame_guardsLaw (own : Bool) (f : Frame) (hs : s.StateLaw) (h : s.GuardsLaw) :
    (acceptFrame own f s).GuardsLaw := by
  unfold acceptFrame
  dsimp only
  split
  next hv =>
    have htaken := takeFrame_guardsLaw own f h
    have hstate := takeFrame_stateLaw own f hs hv
    split
    · exact handOn_guardsLaw _ (ownAccepted_stateLaw _ hstate) (ownAccepted_guardsLaw _ htaken)
    · exact handOn_guardsLaw _ hstate htaken
  next =>
    refine observe_guardsLaw own f ?_
    split
    · exact ownAccepted_guardsLaw _ h
    · exact h

theorem reportMute_guardsLaw (now : Bool) (h : s.GuardsLaw) : (reportMute now s).GuardsLaw := by
  unfold reportMute
  split
  · exact drop_guardsLaw _ h
  · exact h

theorem reportDuplicate_guardsLaw (now : Bool) (h : s.GuardsLaw) : (reportDuplicate now s).GuardsLaw := by
  unfold reportDuplicate
  split
  · exact drop_guardsLaw _ h
  · exact h

theorem returnAttempt_guardsLaw (voided : Bool) (h : s.GuardsLaw) : (returnAttempt voided s).GuardsLaw := by
  have hclosed : (s.withLc { s.lc with sending := none }).GuardsLaw := h.of_eq rfl rfl rfl rfl
  have hends := returnAttempt_ends voided s
  generalize s.withLc { s.lc with sending := none } = w at hclosed hends
  generalize returnAttempt voided s = t at hends ⊢
  have hremoved : (removeContending w).GuardsLaw := hclosed.of_eq rfl rfl rfl rfl
  cases hends with
  | none => exact hclosed
  | removed => exact hremoved
  | dropped o => exact dropRequest_guardsLaw o hremoved
  | request b n c => exact requestReturned_guardsLaw b n c hclosed
  | abandoned c => exact joinAbandoned_guardsLaw c hremoved
  | returned n => exact hclosed.of_eq rfl rfl rfl rfl

theorem voidOwn_guardsLaw (f : Frame) (rd : Reading) (h : s.GuardsLaw) : (voidOwn f rd s).GuardsLaw :=
  reportDuplicate_guardsLaw _ (reportMute_guardsLaw _ (returnAttempt_guardsLaw true
    (h.of_eq (by simp) (by simp) (by simp) (by simp))))

theorem endReceived_guardsLaw (x : Received) (rd : Reading) (h : s.GuardsLaw) : (endReceived x rd s).GuardsLaw := by
  unfold endReceived
  split
  · exact h
  · exact reportMute_guardsLaw _ (h.of_eq (by simp) (by simp) (by simp) (by simp))
  · exact h.of_eq (by simp) (by simp) (by simp) (by simp)

theorem acceptedFrame_guardsLaw (k : Kind) (rd : Reading) (hs : s.StateLaw) (h : s.GuardsLaw) :
    (acceptedFrame k rd s).GuardsLaw := by
  unfold acceptedFrame
  (repeat' split) <;> try exact h
  · exact acceptFrame_guardsLaw _ _ (hs.of_eq (by simp) (by simp) (by simp) (by simp) (by simp))
      (h.of_eq (by simp) (by simp) (by simp) (by simp))
  · exact acceptFrame_guardsLaw _ _ (endReceived_stateLaw _ _ hs) (endReceived_guardsLaw _ _ h)
  · exact endReceived_guardsLaw _ _ h

/-! ### The host's commands -/

theorem takeTransaction_guardsLaw {bytes : List Byte} {act : State → Answer}
    (hact : ∀ w : State, w.GuardsLaw → (act w).1.GuardsLaw) (h : s.GuardsLaw) : (takeTransaction bytes act s).GuardsLaw := by
  unfold takeTransaction
  split
  · have hport : (s.withHp (bytes.foldl receiveByte s.hp)).GuardsLaw := h.of_eq rfl rfl rfl rfl
    exact (hact _ hport).of_eq rfl rfl rfl rfl
  · exact h

theorem onLock_guardsLaw {act : Lock → State → Answer} (lock : Byte) (hact : ∀ l, (act l s).1.GuardsLaw) (h : s.GuardsLaw) :
    (onLock lock act s).1.GuardsLaw := by
  unfold onLock
  (repeat' split) <;> try exact h
  exact hact _

theorem claimLock_guardsLaw (m : Mode) (limit : Byte) (l : Lock) (h : s.GuardsLaw) : (claimLock m limit l s).1.GuardsLaw := by
  unfold claimLock
  (repeat' split) <;> try exact h
  next habove _ => exact placeClaim_guardsLaw _ _ _ (by simpa using habove) h

theorem answerClaim_guardsLaw (lock mode limit : Byte) (h : s.GuardsLaw) : (answerClaim lock mode limit s).1.GuardsLaw := by
  unfold answerClaim
  split
  · exact h
  · exact onLock_guardsLaw lock (fun l => claimLock_guardsLaw _ limit l h) h

theorem yieldLock_guardsLaw (l : Lock) (h : s.GuardsLaw) : (yieldLock l s).1.GuardsLaw := by
  unfold yieldLock
  (repeat' split) <;> try exact h
  next hr _ => exact yieldRecord_guardsLaw _ hr h

theorem withdrawLock_guardsLaw (l : Lock) (h : s.GuardsLaw) : (withdrawLock l s).1.GuardsLaw := by
  unfold withdrawLock
  (repeat' split) <;> try exact h
  next hr _ => exact withdrawRecord_guardsLaw hr h

theorem renewLock_guardsLaw (l : Lock) (h : s.GuardsLaw) : (renewLock l s).1.GuardsLaw := by
  unfold renewLock
  split
  next r hr =>
    split
    · exact h.of_held rfl rfl rfl (.of_replaced hr rfl rfl id)
    · exact h
  next => exact h

/-- CONFIGURE binds the lines in UNCONFIGURED only, where every guard is STOPPED (R75, R130). -/
theorem answerConfigure_guardsLaw (record : Vector Byte 20) (h : s.GuardsLaw) : (answerConfigure record s).1.GuardsLaw := by
  unfold answerConfigure
  (repeat' split) <;> try exact h
  next hs _ _ _ => exact .of_stopped (h.stopped (by simp [hs]))

theorem answerJoin_guardsLaw (h : s.GuardsLaw) : (answerJoin s).1.GuardsLaw := by
  unfold answerJoin
  split
  next hs => exact .of_stopped (h.stopped (by simp [hs]))
  next => exact h

theorem answerLeave_guardsLaw (h : s.GuardsLaw) : (answerLeave s).1.GuardsLaw := by
  unfold answerLeave
  (repeat' split) <;> try exact h
  · exact .of_stopped (by simp [answer, leaveBus, enterState_gl])
  · exact .of_stopped (by simp [answer, abandonJoin, enterState_gl])

/-! ### The timers -/

theorem startFrame_guardsLaw (h : s.GuardsLaw) : (startFrame s).GuardsLaw := by
  unfold startFrame
  dsimp only
  split <;> exact h.of_kept rfl rfl rfl rfl (.of_rt rfl)

theorem contactDue_guardsLaw (h : s.GuardsLaw) : (contactDue s).GuardsLaw := by
  unfold contactDue
  dsimp only
  split <;> exact h.of_kept rfl rfl rfl rfl (.of_rt rfl)

theorem contactFence_guardsLaw (hm : s.sc.state = .member) (h : s.GuardsLaw) : (contactFence s).GuardsLaw := by
  have hlimit := fenceChanged_linesLaw (fenceSet s) (true, s.pm.quorum)
    (s := s.withPm { s.pm with ownContact := reached (3 * beaconPeriod s) s.pm.ownContact, contact := true }) hm
    (State.LinesLaw.of_kept h rfl rfl rfl (.of_rt rfl))
  have hfence : fenced (contactFence s) = (true || s.pm.quorum) := by simp [fenced, contactFence]
  unfold State.GuardsLaw
  rw [hfence]
  exact hlimit

theorem execAbsenceLimit_guardsLaw {m : Station} (h : s.GuardsLaw) (hexec : execAbsenceLimit m s = .next t) : t.GuardsLaw := by
  unfold execAbsenceLimit at hexec
  cases hexec
  split
  · exact h.of_kept (by simp) (by simp) (by simp) (by simp [fenced]) (.of_rt (by simp))
  · exact h

theorem execHoldExpiry_guardsLaw {i : Tier} (hholds : s.HoldsLaw) (h : s.GuardsLaw) (hexec : execHoldExpiry i s = .next t) :
    t.GuardsLaw := by
  unfold execHoldExpiry at hexec
  cases hexec
  (repeat' split) <;> try exact h
  next r hr _ =>
    have hrecord : recordFor s r.lock = some r := recordFor_some.mpr ⟨(hholds i r hr).1 ▸ hr, rfl⟩
    exact (yieldRecord_guardsLaw .expired hrecord h).of_eq (by simp [expireHold]) (by simp [expireHold]) (by simp [expireHold])
      (by simp [expireHold])

theorem tickGuard_stopped {g : Guard} : tickGuard g = .stopped ↔ g = .stopped := by cases g <;> simp [tickGuard]

theorem tick_guardsLaw (h : s.GuardsLaw) : (tick s).GuardsLaw := by
  have hguard (n : GrantLine) : (tick s).gl.guards[n] = tickGuard s.gl.guards[n] := by simp [tick]
  have hslot (i : Tier) : (tick s).rt.slots[i] =
      s.rt.slots[i].map fun r => { r with holdTimer := r.holdTimer.map (· + 1) } := by
    simp [tick]
  have hkeeps : s.KeepsHeld (tick s) := .of_slots fun i r hr hheld =>
    ⟨{ r with holdTimer := r.holdTimer.map (· + 1) }, by rw [hslot, hr]; rfl, rfl, hheld⟩
  refine ⟨fun n hn => ?_, fun n k hnk => by rw [hguard, hguard, h.alike n k hnk]⟩
  rw [hguard, ne_eq, tickGuard_stopped] at hn
  obtain ⟨hm, hfree, l, hl, hheld⟩ := h.held n hn
  exact ⟨hm, hfree, l, hl, hkeeps l hheld⟩

theorem passTime_guardsLaw (h : s.GuardsLaw) : (passTime s).GuardsLaw := by
  unfold passTime
  split
  · exact h
  · exact (tick_guardsLaw h).of_eq rfl rfl rfl rfl

theorem linesElapsed_guardsLaw (n : GrantLine) (h : s.GuardsLaw) : (s.linesElapsed n).GuardsLaw := by
  refine ⟨fun k hk => h.held k fun hstopped => hk ?_, fun j k hjk => ?_⟩
  · rw [linesElapsed_get, hstopped]
    simp [elapsedGuard]
  · have hbind : grantBinding s j = grantBinding s k := hjk
    rw [linesElapsed_get, linesElapsed_get, hbind, h.alike j k hbind]

theorem execGuardElapsed_guardsLaw {n : GrantLine} (h : s.GuardsLaw) (hexec : exec (.guardElapsed n) s = .next t) :
    t.GuardsLaw := by
  cases hrun : s.gl.guards[n] with
  | running a =>
    rw [exec_guardElapsed hrun] at hexec
    cases hexec
    exact linesElapsed_guardsLaw n h
  | _ =>
    simp only [exec, execGuardElapsed, hrun] at hexec
    cases hexec
    exact h

/-! ### Every command -/

theorem exec_guardsLaw {i : Instr} (hs : s.StateLaw) (hholds : s.HoldsLaw) (h : s.GuardsLaw) (hexec : exec i s = .next t) :
    t.GuardsLaw := by
  cases i with
  | hardReset => cases hexec; exact .of_stopped rfl
  | configureCommand record => cases hexec; exact takeTransaction_guardsLaw (fun _ => answerConfigure_guardsLaw record) h
  | joinCommand => cases hexec; exact takeTransaction_guardsLaw (fun _ => answerJoin_guardsLaw) h
  | leaveCommand => cases hexec; exact takeTransaction_guardsLaw (fun _ => answerLeave_guardsLaw) h
  | resetCommand => cases hexec; exact takeTransaction_guardsLaw (fun _ _ => .of_stopped (by simp [answer, softReset])) h
  | claimCommand lock mode limit =>
    cases hexec; exact takeTransaction_guardsLaw (fun _ => answerClaim_guardsLaw lock mode limit) h
  | yieldCommand lock =>
    cases hexec; exact takeTransaction_guardsLaw (fun _ hw => onLock_guardsLaw lock (fun l => yieldLock_guardsLaw l hw) hw) h
  | withdrawCommand lock =>
    cases hexec; exact takeTransaction_guardsLaw (fun _ hw => onLock_guardsLaw lock (fun l => withdrawLock_guardsLaw l hw) hw) h
  | renewCommand lock =>
    cases hexec; exact takeTransaction_guardsLaw (fun _ hw => onLock_guardsLaw lock (fun l => renewLock_guardsLaw l hw) hw) h
  | readLockCommand lock =>
    cases hexec
    refine takeTransaction_guardsLaw (fun w hw => ?_) h
    unfold answerReadLock
    split <;> exact hw
  | readRosterCommand => cases hexec; exact takeTransaction_guardsLaw (fun _ hw => hw) h
  | readHoldsCommand => cases hexec; exact takeTransaction_guardsLaw (fun _ hw => hw) h
  | readNoticeCommand =>
    cases hexec
    refine takeTransaction_guardsLaw (fun w hw => ?_) h
    unfold answerReadNotice
    split <;> exact hw
  | readStatusCommand => cases hexec; exact takeTransaction_guardsLaw (fun _ hw => hw.of_eq rfl rfl rfl rfl) h
  | unknownCommand code =>
    cases hexec
    split
    · exact takeTransaction_guardsLaw (fun _ hw => hw) h
    · exact h
  | busOpportunity =>
    cases hexec
    split
    · exact (revalidate_guardsLaw h).of_eq (by simp) (by simp) (by simp) (by simp)
    · exact h
  | startBitConfirmed =>
    cases hexec
    split
    · exact startFrame_guardsLaw h
    · exact h
  | unconfirmedStartBit =>
    cases hexec
    split
    · exact reportMute_guardsLaw _ (returnAttempt_guardsLaw _ (h.of_eq (by simp) (by simp) (by simp) (by simp)))
    · exact h
  | arbitrationLost =>
    cases hexec
    split
    · exact returnAttempt_guardsLaw _ (h.of_eq (by simp) (by simp) (by simp) (by simp))
    · exact h
  | frameLost cells =>
    cases hexec
    (repeat' split) <;> try exact h
    exact reportMute_guardsLaw _ (h.of_eq (by simp) (by simp) (by simp) (by simp))
  | frameVoided rd =>
    cases hexec
    (repeat' split) <;> try exact h
    · exact voidOwn_guardsLaw _ rd h
    · exact endReceived_guardsLaw _ rd h
  | claimFrame rd => cases hexec; exact acceptedFrame_guardsLaw _ rd hs h
  | yieldFrame rd => cases hexec; exact acceptedFrame_guardsLaw _ rd hs h
  | withdrawFrame rd => cases hexec; exact acceptedFrame_guardsLaw _ rd hs h
  | evictFrame rd => cases hexec; exact acceptedFrame_guardsLaw _ rd hs h
  | departFrame rd => cases hexec; exact acceptedFrame_guardsLaw _ rd hs h
  | beaconFrame rd => cases hexec; exact acceptedFrame_guardsLaw _ rd hs h
  | syncAskFrame rd => cases hexec; exact acceptedFrame_guardsLaw _ rd hs h
  | pageFrame rd => cases hexec; exact acceptedFrame_guardsLaw _ rd hs h
  | enrolFrame rd => cases hexec; exact acceptedFrame_guardsLaw _ rd hs h
  | foundFrame rd => cases hexec; exact acceptedFrame_guardsLaw _ rd hs h
  | ownContactReachesP =>
    cases hexec
    split
    · exact contactDue_guardsLaw h
    · exact h
  | beaconPromoted =>
    cases hexec
    split
    · exact h.of_kept rfl rfl rfl rfl (.of_rt rfl)
    · exact h
  | fenceLimit =>
    cases hexec
    split
    next hm => exact contactFence_guardsLaw hm h
    next => exact h
  | absenceLimit m => exact execAbsenceLimit_guardsLaw h hexec
  | stranding =>
    cases hexec
    split
    · exact drop_guardsLaw _ h
    · exact h
  | foundingWait =>
    cases hexec
    split
    · exact .of_stopped (by simp [enterState_gl])
    · exact h
  | roundTimeout =>
    cases hexec
    split
    case h_3 => exact h
    all_goals exact roundOut_guardsLaw s
  | holdExpiry i => exact execHoldExpiry_guardsLaw hholds h hexec
  | guardElapsed n => exact execGuardElapsed_guardsLaw h hexec
  | stableLevelChange p =>
    cases hexec
    split
    · exact evaluatePin_guardsLaw p (h.of_eq rfl rfl rfl rfl)
    · exact h
  | _ => cases hexec; (repeat' split) <;> exact h.of_eq rfl rfl rfl rfl

/-- Settles O58: every command and the clock keep the law, its premises from the two other laws. -/
theorem guardsLawKept : Obligations.GuardsLawKept := by
  intro s t hs hholds h hstep
  rw [State.stateLawful_iff] at hs
  rw [State.holdsLawful_iff] at hholds
  rw [State.guardsLawful_iff] at h ⊢
  rcases step_cases hstep with ⟨c, n, q, hexec⟩ | rfl
  · have hq : ({ s with choices := n, pending := q } : State).StateLaw := hs.of_eq rfl rfl rfl rfl rfl
    exact exec_guardsLaw hq hholds (h.of_eq rfl rfl rfl rfl) hexec
  · exact passTime_guardsLaw h

end Sys2Proof.Machine
end

section
/-! PROOFS. The law of the outbound queue (R143), its clauses by name, and the changes that keep it: entries that leave, an entry placed for an
owner that has none, and a slot whose record changes with its entry. -/

namespace Sys2Proof.Machine

variable {s t u : State} {e : Entry} {c : Content} {i : Tier} {l : Lock} {r x : HoldRecord} {y : Option HoldRecord}

/-! ### The law -/

/-- At most one entry for each owner (R143). -/
def State.OwnersApart (s : State) : Prop := (s.oq.entries.map (ownerOf ·.content)).Nodup

/-- A YIELD is deferred only by a YIELDING record behind its WITHDRAW, in MEMBER (R119, R123). -/
def State.mayDefer (s : State) (r : HoldRecord) : Prop :=
  r.deferred ≠ none → r.state = .yielding ∧ r.withdrawAsked = true ∧ s.sc.state = .member

/-- The clauses of State.queueLawful; that the entries are 12 at most follows from the first. -/
structure State.QueueLaw (s : State) : Prop where
  apart : s.OwnersApart
  entry : ∀ e ∈ s.oq.entries, s.entryLawful e = true
  deferred : ∀ (i : Tier) r, s.rt.slots[i] = some r → s.mayDefer r

/-- The 12 owners: the slots, the BEACON, the EVICT, the PAGE and the joining frame (R143). -/
def allOwners : List Owner := (List.finRange 8).map .slot ++ [.beacon, .evict, .page, .joining]

theorem mem_allOwners (o : Owner) : o ∈ allOwners := by
  cases o <;> simp [allOwners]

/-- There are 12 owners, so that a queue with one entry for each has room for all (R143). -/
theorem State.OwnersApart.length_le (h : s.OwnersApart) : s.oq.entries.length ≤ 12 := by
  have hle := (List.Nodup.subperm h fun o _ => mem_allOwners o).length_le
  simpa [allOwners] using hle

theorem State.queueLawful_iff (s : State) : s.queueLawful = true ↔ s.QueueLaw := by
  have hslot (i : Tier) : (s.rt.slots[i].all fun r =>
      r.deferred.isNone || (r.state == .yielding && r.withdrawAsked && s.sc.state == .member)) = true ↔
      ∀ r, s.rt.slots[i] = some r → s.mayDefer r := by
    cases s.rt.slots[i] with
    | none => simp
    | some r => cases hd : r.deferred <;> simp [mayDefer, hd, and_assoc]
  simp only [queueLawful, Bool.and_eq_true, decide_eq_true_eq, List.all_eq_true, List.mem_finRange, true_implies, hslot]
  constructor
  · rintro ⟨⟨⟨hapart, -⟩, hentry⟩, hdeferred⟩
    exact ⟨hapart, hentry, hdeferred⟩
  · rintro ⟨hapart, hentry, hdeferred⟩
    exact ⟨⟨⟨hapart, hapart.length_le⟩, hentry⟩, hdeferred⟩

theorem State.mayDefer_of_none (h : r.deferred = none) : s.mayDefer r := fun hd => absurd h hd

/-- Only a YIELDING record defers a YIELD. -/
theorem State.QueueLaw.settled (h : s.QueueLaw) (hr : s.rt.slots[i] = some r) (hstate : r.state ≠ .yielding) :
    r.deferred = none := by
  by_contra hd
  exact hstate (h.deferred i r hr hd).1

/-! ### One entry of the queue -/

theorem entryLawful_discarded (h : e.discard = true) : s.entryLawful e = (e.contending && !voting s.sc.state) := by
  simp [State.entryLawful, h]

theorem entryLawful_slot (hd : e.discard = false) (ho : ownerOf e.content = .slot i) :
    s.entryLawful e = (present s.sc.state && s.rt.slots[i].any fun r => r.fits e) := by
  simp [State.entryLawful, hd, ho]

/-- The station state to which a joining entry belongs (R77, R78, R87, R91, R92). -/
theorem entryLawful_joining (hd : e.discard = false) (ho : ownerOf e.content = .joining) (h : s.entryLawful e = true) :
    (e.content = .found ∧ s.sc.state = .founding) ∨ (e.content = .syncAsk ∧ s.sc.state = .asking) ∨
    (e.content = .enrol ∧ s.sc.state = .enrolling) ∨ (e.content = .depart ∧ (s.sc.state = .departing ∨ s.sc.state = .enrolling)) := by
  cases hc : e.content <;> simp only [hc, ownerOf, reduceCtorEq] at ho <;>
    simp [State.entryLawful, hd, hc, ownerOf] at h <;> simp [h]
  exact h.imp id And.left

/-- An entry is looked at with the station state, the stale-membership mark and its own slot. -/
theorem entryLawful_congr (hstate : t.sc.state = s.sc.state) (hstale : t.sc.staleMark = s.sc.staleMark)
    (hslot : ∀ i, ownerOf e.content = .slot i → t.rt.slots[i] = s.rt.slots[i]) : t.entryLawful e = s.entryLawful e := by
  cases hd : e.discard with
  | true => rw [entryLawful_discarded hd, entryLawful_discarded hd, hstate]
  | false =>
    cases ho : ownerOf e.content with
    | slot i => rw [entryLawful_slot hd ho, entryLawful_slot hd ho, hstate, hslot i ho]
    | joining => cases hc : e.content <;> simp [State.entryLawful, hd, hc, ownerOf, hstate, hstale] at ho ⊢
    | _ => simp only [State.entryLawful, hd, ho, hstate]

/-- A discarded entry is CONTENDING, at a station that does not vote (R155). -/
theorem State.QueueLaw.discarded (h : s.QueueLaw) (he : e ∈ s.oq.entries) (hd : e.discard = true) :
    e.contending = true ∧ voting s.sc.state = false := by
  have hlaw := h.entry e he
  rw [entryLawful_discarded hd] at hlaw
  simpa using hlaw

theorem voting_of_present {x : StationState} (h : present x = true) : voting x = true := by
  cases x <;> simp_all [present, voting]

/-- With presence duties a slot's entry fits the slot's record. -/
theorem State.QueueLaw.slotEntry (h : s.QueueLaw) (hp : present s.sc.state = true) (he : e ∈ s.oq.entries)
    (ho : ownerOf e.content = .slot i) : e.discard = false ∧ ∃ r, s.rt.slots[i] = some r ∧ r.fits e = true := by
  have hd : e.discard = false := by
    by_contra hd
    have hv := (h.discarded he (by simpa using hd)).2
    rw [voting_of_present hp] at hv
    cases hv
  have hlaw := h.entry e he
  rw [entryLawful_slot hd ho, hp, Bool.true_and, Option.any_eq_true] at hlaw
  exact ⟨hd, hlaw⟩

/-! ### What fits a record -/

theorem fits_claiming (h : r.state = .claiming) : r.fits e = true ↔ ∃ m, e.content = .claim r.lock m := by
  unfold HoldRecord.fits
  rw [h]
  cases e.content <;> simp

theorem fits_claimCancel (h : r.state = .claimCancel) :
    r.fits e = true ↔ (∃ m, e.content = .claim r.lock m) ∧ e.contending = true := by
  unfold HoldRecord.fits
  rw [h]
  cases e.content <;> simp

theorem fits_waiting (h : r.state = .waiting) : r.fits e = false := by
  unfold HoldRecord.fits
  rw [h]

theorem fits_withdrawing (h : r.state = .withdrawing) : r.fits e = true ↔ e.content = .withdraw r.lock := by
  unfold HoldRecord.fits
  rw [h]
  cases e.content <;> simp

theorem fits_held (h : r.state = .held) :
    r.fits e = true ↔ e.content = .withdraw r.lock ∧ r.withdrawAsked = true ∧ e.contending = true := by
  unfold HoldRecord.fits
  rw [h]
  cases e.content <;> simp [and_assoc]

theorem fits_yielding (h : r.state = .yielding) :
    r.fits e = true ↔ (e.content = .withdraw r.lock ∧ r.withdrawAsked = true ∧ e.contending = true) ∨
      ∃ why, e.content = .yield r.lock (r.generation.getD 0) why ∧ r.withdrawAsked = false := by
  unfold HoldRecord.fits
  rw [h]
  cases e.content <;> simp [and_assoc]
  tauto

/-! ### Entries that leave, and entries placed -/

theorem State.OwnersApart.sublist (h : s.OwnersApart) (hsub : t.oq.entries.Sublist s.oq.entries) : t.OwnersApart :=
  List.Nodup.sublist (hsub.map _) h

/-- An owner without an entry has one placed. -/
theorem State.OwnersApart.placed (h : s.OwnersApart) (hfree : hasEntry (ownerOf c) s = false)
    (hq : t.oq.entries = s.oq.entries ++ [newEntry c]) : t.OwnersApart := by
  rw [hasEntry_false] at hfree
  unfold State.OwnersApart
  rw [hq, List.map_append, List.nodup_append]
  refine ⟨h, by simp, fun o ho b hb heq => ?_⟩
  obtain ⟨e, he, rfl⟩ := List.mem_map.mp ho
  simp only [newEntry, List.map_cons, List.map_nil, List.mem_singleton] at hb
  exact hfree e he (heq.trans hb)

theorem cancelQueued_sublist (p : Entry → Bool) (s : State) : (cancelQueued p s).oq.entries.Sublist s.oq.entries :=
  List.filter_sublist

theorem removeContending_sublist (s : State) : (removeContending s).oq.entries.Sublist s.oq.entries := List.filter_sublist

/-- Two entries of one owner are one entry. -/
theorem State.OwnersApart.entry_unique (h : s.OwnersApart) {a b : Entry} (ha : a ∈ s.oq.entries) (hb : b ∈ s.oq.entries)
    (ho : ownerOf a.content = ownerOf b.content) : a = b :=
  List.inj_on_of_nodup_map h ha hb ho

/-- Entries leave the queue or are placed in it lawfully; slots and station state stay. -/
structure State.TendsQueue (s t : State) : Prop where
  rt : t.rt = s.rt
  state : t.sc.state = s.sc.state
  stale : t.sc.staleMark = s.sc.staleMark
  apart : s.OwnersApart → t.OwnersApart
  entry : ∀ e ∈ t.oq.entries, e ∈ s.oq.entries ∨ t.entryLawful e = true

namespace State.TendsQueue

theorem entryLawful (h : s.TendsQueue t) (e : Entry) : t.entryLawful e = s.entryLawful e :=
  entryLawful_congr h.state h.stale fun _ _ => by rw [h.rt]

theorem queueLaw (h : s.TendsQueue t) (hs : s.QueueLaw) : t.QueueLaw where
  apart := h.apart hs.apart
  entry e he := (h.entry e he).elim (fun hmem => by rw [h.entryLawful]; exact hs.entry e hmem) id
  deferred i r hr := by
    have hdefer := hs.deferred i r (h.rt ▸ hr)
    rwa [State.mayDefer, h.state]

theorem of_sublist (hrt : t.rt = s.rt) (hstate : t.sc.state = s.sc.state) (hstale : t.sc.staleMark = s.sc.staleMark)
    (hsub : t.oq.entries.Sublist s.oq.entries) : s.TendsQueue t :=
  ⟨hrt, hstate, hstale, fun h => h.sublist hsub, fun _ he => .inl (hsub.subset he)⟩

theorem of_eq (hrt : t.rt = s.rt) (hsc : t.sc = s.sc) (hoq : t.oq = s.oq) : s.TendsQueue t :=
  of_sublist hrt (by rw [hsc]) (by rw [hsc]) (by rw [hoq])

theorem refl (s : State) : s.TendsQueue s := of_eq rfl rfl rfl

theorem trans (h1 : s.TendsQueue t) (h2 : t.TendsQueue u) : s.TendsQueue u where
  rt := h2.rt.trans h1.rt
  state := h2.state.trans h1.state
  stale := h2.stale.trans h1.stale
  apart := h2.apart ∘ h1.apart
  entry e he := by
    rcases h2.entry e he with hmem | hlaw
    · exact (h1.entry e hmem).imp id fun hlaw => by rwa [h2.entryLawful]
    · exact .inr hlaw

theorem cancelled (p : Entry → Bool) (s : State) : s.TendsQueue (cancelQueued p s) :=
  of_sublist (by simp) (by simp) (by simp) (cancelQueued_sublist p s)

theorem placed (hfree : hasEntry (ownerOf c) s = false) (hlaw : s.entryLawful (newEntry c) = true) :
    s.TendsQueue (placeEntry c s) where
  rt := by simp
  state := by simp
  stale := by simp
  apart h := h.placed hfree rfl
  entry e he := by
    rw [placeEntry, State.withEntries_oq, List.mem_append, List.mem_singleton] at he
    rcases he with he | rfl
    · exact .inl he
    · exact .inr hlaw

end State.TendsQueue

/-- Slots, queue, station state and stale-membership mark stay. -/
theorem State.QueueLaw.of_kept (h : s.QueueLaw) (hrt : t.rt = s.rt) (hstate : t.sc.state = s.sc.state)
    (hstale : t.sc.staleMark = s.sc.staleMark) (hoq : t.oq = s.oq) : t.QueueLaw :=
  (State.TendsQueue.of_sublist hrt hstate hstale (by rw [hoq])).queueLaw h

theorem State.QueueLaw.of_eq (h : s.QueueLaw) (hrt : t.rt = s.rt) (hsc : t.sc = s.sc) (hoq : t.oq = s.oq) : t.QueueLaw :=
  h.of_kept hrt (by rw [hsc]) (by rw [hsc]) hoq

theorem State.QueueLaw.placed (h : s.QueueLaw) (c : Content) (hfree : hasEntry (ownerOf c) s = false)
    (hlaw : s.entryLawful (newEntry c) = true) : (placeEntry c s).QueueLaw := (State.TendsQueue.placed hfree hlaw).queueLaw h

/-! ### A slot and its entry -/

namespace State.QueueLaw

theorem of_slot (h : s.QueueLaw) (hslots : t.rt.slots = putAt s.rt.slots i y) (hsc : t.sc = s.sc) (hapart : t.OwnersApart)
    (hother : ∀ e ∈ t.oq.entries, ownerOf e.content ≠ .slot i → e ∈ s.oq.entries)
    (hown : ∀ e ∈ t.oq.entries, ownerOf e.content = .slot i → t.entryLawful e = true)
    (hy : ∀ x, y = some x → t.mayDefer x) : t.QueueLaw where
  apart := hapart
  entry e he := by
    by_cases ho : ownerOf e.content = .slot i
    · exact hown e he ho
    · have hcongr : t.entryLawful e = s.entryLawful e := entryLawful_congr (by rw [hsc]) (by rw [hsc]) fun j hj => by
        rw [hslots, putAt_get_other]
        rintro rfl
        exact ho hj
      rw [hcongr]
      exact h.entry e (hother e he ho)
  deferred j r hr := by
    rw [hslots, putAt_get] at hr
    split at hr
    · exact hy r hr
    · have hdefer := h.deferred j r hr
      rwa [State.mayDefer, hsc]

/-- The slot's record is replaced by one that its entry fits. -/
theorem replaced (h : s.QueueLaw) (hp : present s.sc.state = true) (hr : s.rt.slots[i] = some r)
    (hslots : t.rt.slots = putAt s.rt.slots i (some x)) (hsc : t.sc = s.sc) (hsub : t.oq.entries.Sublist s.oq.entries)
    (hfits : ∀ e ∈ t.oq.entries, ownerOf e.content = .slot i → r.fits e = true → x.fits e = true) (hx : t.mayDefer x) :
    t.QueueLaw := by
  refine h.of_slot hslots hsc (h.apart.sublist hsub) (fun e he _ => hsub.subset he) (fun e he ho => ?_) ?_
  · obtain ⟨hd, z, hz, hfit⟩ := h.slotEntry hp (hsub.subset he) ho
    obtain rfl : r = z := Option.some.inj (hr.symm.trans hz)
    rw [entryLawful_slot hd ho, hsc, hp, hslots, putAt_get_self]
    simpa using hfits e he ho hfit
  · rintro z ⟨⟩
    exact hx

/-- The slot changes and has no entry any more. -/
theorem freed (h : s.QueueLaw) (hslots : t.rt.slots = putAt s.rt.slots i y) (hsc : t.sc = s.sc)
    (hsub : t.oq.entries.Sublist s.oq.entries) (hfree : hasEntry (.slot i) t = false) (hy : ∀ x, y = some x → t.mayDefer x) :
    t.QueueLaw :=
  h.of_slot hslots hsc (h.apart.sublist hsub) (fun _ he _ => hsub.subset he)
    (fun e he ho => absurd ho (hasEntry_false _ |>.mp hfree e he)) hy

/-- A slot without an entry takes a record and has an entry placed that fits it. -/
theorem filled (h : s.QueueLaw) (hp : present s.sc.state = true) (hfree : hasEntry (.slot i) s = false)
    (ho : ownerOf c = .slot i) (hslots : t.rt.slots = putAt s.rt.slots i (some x)) (hsc : t.sc = s.sc)
    (hq : t.oq.entries = s.oq.entries ++ [newEntry c]) (hfits : x.fits (newEntry c) = true) (hx : t.mayDefer x) :
    t.QueueLaw := by
  have hmem (e : Entry) (he : e ∈ t.oq.entries) : e ∈ s.oq.entries ∨ e = newEntry c := by simpa [hq] using he
  refine h.of_slot hslots hsc (h.apart.placed (ho ▸ hfree) hq) (fun e he hne => ?_) (fun e he heq => ?_) ?_
  · exact (hmem e he).resolve_right fun hnew => hne (hnew ▸ ho)
  · obtain rfl := (hmem e he).resolve_left fun hold => (hasEntry_false _).mp hfree e hold heq
    rw [entryLawful_slot rfl ho, hsc, hp, hslots, putAt_get_self]
    simpa using hfits
  · rintro z ⟨⟩
    exact hx

/-- A slot whose record no entry fits has none. -/
theorem slotFree (h : s.QueueLaw) (hp : present s.sc.state = true)
    (hno : ∀ r, s.rt.slots[i] = some r → ∀ e ∈ s.oq.entries, r.fits e = false) : hasEntry (.slot i) s = false := by
  rw [hasEntry_false]
  intro e he ho
  obtain ⟨-, r, hr, hfit⟩ := h.slotEntry hp he ho
  rw [hno r hr e he] at hfit
  cases hfit

end State.QueueLaw

end Sys2Proof.Machine
end

section
/-! PROOFS. The law of the outbound queue under the Request Tracker's operations (chapter The Hold List and Local Requests): a record moves
together with its entry. While outcomes are taken nothing of this station is CONTENDING (R152). -/

namespace Sys2Proof.Machine

variable {s t : State} {e : Entry} {i : Tier} {l : Lock} {r : HoldRecord}

/-! ### The entry of a slot -/

theorem slotContends_iff {k : Kind} : slotContends k i s = true ↔
    ∃ e ∈ s.oq.entries, e.contending = true ∧ ownerOf e.content = .slot i ∧ kindOf e.content = k := by
  simp [slotContends, List.any_eq_true, and_assoc]

theorem hasEntry_congr {o : Owner} (h : t.oq = s.oq) : hasEntry o t = hasEntry o s := by simp only [hasEntry, h]

/-- The cancellation leaves no entry of a slot that is not CONTENDING (R153). -/
theorem cancelRequest_free (h : ∀ e ∈ s.oq.entries, ownerOf e.content = .slot i → e.contending = false) :
    hasEntry (.slot i) (cancelRequest i s) = false := by
  rw [hasEntry_false]
  intro e he ho
  simp only [cancelRequest, cancelQueued, State.withEntries_oq, List.mem_filter] at he
  simp [h e he.1 ho, ho] at he

theorem cancelRequest_sublist (i : Tier) (s : State) : (cancelRequest i s).oq.entries.Sublist s.oq.entries :=
  cancelQueued_sublist _ s

theorem cancelRequest_rest (h : s.attempt = []) : hasEntry (.slot i) (cancelRequest i s) = false :=
  cancelRequest_free fun e he _ => State.attempt_nil.mp h e he

/-- With the attempt's entry its owner's entry is gone from the queue. -/
theorem removeContending_free (h : s.OwnersApart) (he : e ∈ s.oq.entries) (hc : e.contending = true) :
    hasEntry (ownerOf e.content) (removeContending s) = false := by
  rw [hasEntry_false]
  intro x hx ho
  simp only [removeContending, State.withEntries_oq, List.mem_filter] at hx
  rw [h.entry_unique hx.1 he ho, hc] at hx
  simp at hx

/-! ### Claims, yields and withdraws -/

theorem placeClaim_queueLaw (o : Origin) (m : Mode) (limit : Byte) (hp : present s.sc.state = true)
    (habove : aboveOccupied s l = true) (h : s.QueueLaw) : (placeClaim o l m limit s).QueueLaw := by
  have hfree : hasEntry (.slot (tierOf l)) s = false :=
    h.slotFree hp fun r hr => absurd (aboveOccupied_iff.mp habove _ r hr) (lt_irrefl _)
  exact h.filled hp hfree rfl rfl rfl rfl (by simp [HoldRecord.fits, newEntry]) (State.mayDefer_of_none rfl)

/-- The YIELD of a HELD record is placed where the slot has no entry, and deferred where its WITHDRAW is CONTENDING (R109, R119). -/
theorem yieldRecord_queueLaw (why : Reason) (hm : s.sc.state = .member) (hr : recordFor s l = some r) (hheld : r.state = .held)
    (h : s.QueueLaw) : (yieldRecord why r s).QueueLaw := by
  have hp : present s.sc.state = true := by rw [hm]; rfl
  obtain ⟨hslot, rfl⟩ := recordFor_some.mp hr
  obtain ⟨hslots, hentries, -, -⟩ := yieldRecord_yields why r s
  have hsc : (yieldRecord why r s).sc = s.sc := by simp
  cases hmark : r.withdrawAsked with
  | true =>
    simp only [hmark, if_true, List.append_nil] at hslots hentries
    refine h.replaced hp hslot hslots hsc (by rw [hentries]) (fun e _ _ hfit => ?_) fun _ => ?_
    · obtain ⟨hcontent, -, hcontends⟩ := (fits_held hheld).mp hfit
      exact (fits_yielding rfl).mpr (.inl ⟨hcontent, rfl, hcontends⟩)
    · exact ⟨rfl, rfl, by rw [hsc, hm]⟩
  | false =>
    simp only [hmark, Bool.false_eq_true, if_false] at hslots hentries
    have hfree : hasEntry (.slot (tierOf r.lock)) s = false := h.slotFree hp fun x hx e _ => by
      obtain rfl : r = x := Option.some.inj (hslot.symm.trans hx)
      rw [← Bool.not_eq_true, fits_held hheld, hmark]
      simp
    have hsettled := h.settled hslot (by simp [hheld])
    exact h.filled hp hfree rfl hslots hsc hentries ((fits_yielding rfl).mpr (.inr ⟨why, rfl, rfl⟩))
      (State.mayDefer_of_none hsettled)

/-- A claim not yet answered ends with its entry, or is cancelled while its CLAIM is CONTENDING; a WAITING record has no entry (R110, R111). -/
theorem withdrawRecord_queueLaw (hp : present s.sc.state = true) (hr : recordFor s l = some r) (h : s.QueueLaw) :
    (withdrawRecord r s).QueueLaw := by
  obtain ⟨hslot, rfl⟩ := recordFor_some.mp hr
  cases hstate : r.state with
  | claiming =>
    have hsettled := h.settled hslot (by simp [hstate])
    cases hcontends : slotContends .claim (tierOf r.lock) s with
    | true =>
      obtain ⟨z, hz, hcontending, howner, -⟩ := slotContends_iff.mp hcontends
      simp only [withdrawRecord, hstate, hcontends, if_true]
      refine h.replaced hp hslot rfl rfl (List.Sublist.refl _) (fun e he ho hfit => ?_) (State.mayDefer_of_none hsettled)
      obtain rfl := h.apart.entry_unique he hz (ho.trans howner.symm)
      exact (fits_claimCancel rfl).mpr ⟨(fits_claiming hstate).mp hfit, hcontending⟩
    | false =>
      simp only [withdrawRecord, hstate, hcontends, Bool.false_eq_true, if_false]
      refine h.freed (i := tierOf r.lock) (y := none) (by simp [setSlot]) (by simp)
        (by simpa using cancelRequest_sublist _ s) ?_ (by simp)
      rw [hasEntry_congr (s := cancelRequest (tierOf r.lock) s) (by simp)]
      refine cancelRequest_free fun e he ho => ?_
      obtain ⟨-, x, hx, hfit⟩ := h.slotEntry hp he ho
      obtain rfl : r = x := Option.some.inj (hslot.symm.trans hx)
      obtain ⟨m, hcontent⟩ := (fits_claiming hstate).mp hfit
      by_contra hc
      rw [slotContends_iff.mpr ⟨e, he, by simpa using hc, ho, by rw [hcontent]; rfl⟩] at hcontends
      cases hcontends
  | waiting =>
    simp only [withdrawRecord, hstate]
    have hfree : hasEntry (.slot (tierOf r.lock)) s = false := h.slotFree hp fun x hx e _ => by
      obtain rfl : r = x := Option.some.inj (hslot.symm.trans hx)
      exact fits_waiting hstate
    have hsettled := h.settled hslot (by simp [hstate])
    exact h.filled hp hfree rfl rfl rfl rfl ((fits_withdrawing rfl).mpr rfl) (State.mayDefer_of_none hsettled)
  | _ => simpa only [withdrawRecord, hstate] using h

theorem evaluatePin_queueLaw (p : Pin) (h : s.QueueLaw) : (evaluatePin p s).QueueLaw := by
  by_cases hm : s.sc.state = .member
  · have hp : present s.sc.state = true := by rw [hm]; rfl
    simp only [evaluatePin, hm, if_true]
    (repeat' split) <;> try exact h
    · unfold pinClaim
      split
      next hopen => exact placeClaim_queueLaw _ _ _ hp (Bool.and_eq_true_iff.mp hopen).1 h
      next => exact h.of_eq (by simp) (by simp) (by simp)
    next hr _ hheld => exact yieldRecord_queueLaw _ hm hr hheld h
    next hr _ _ => exact withdrawRecord_queueLaw hp hr h
  · rwa [evaluatePin_other p hm]

theorem evaluateOrigin_queueLaw (o : Origin) (h : s.QueueLaw) : (evaluateOrigin o s).QueueLaw := by
  cases o with
  | host => exact h
  | req p => exact evaluatePin_queueLaw p h

/-! ### Outcomes -/

theorem enterHeld_queueLaw (k : NoticeKind) (mark : Bool) (g : Generation) (hrest : s.attempt = [])
    (hr : recordFor s l = some r) (hstate : r.state ≠ .yielding) (h : s.QueueLaw) : (enterHeld k mark g r s).QueueLaw := by
  have hsettled := h.settled (recordFor_some.mp hr).1 hstate
  refine evaluateOrigin_queueLaw _ (h.freed (i := tierOf r.lock) (y := some _) (by simp [setSlot]; rfl) (by simp)
    (by simpa using cancelRequest_sublist _ s) ?_ ?_)
  · rw [hasEntry_congr (s := cancelRequest (tierOf r.lock) s) (by simp)]
    exact cancelRequest_rest hrest
  · rintro x ⟨⟩
    exact State.mayDefer_of_none hsettled

theorem emptySlot_queueLaw (n : Option (NoticeKind × Option Generation × Qualifier)) (r : HoldRecord) (hrest : s.attempt = [])
    (h : s.QueueLaw) : (emptySlot n r s).QueueLaw := by
  have hempty : (setSlot (tierOf r.lock) none (cancelRequest (tierOf r.lock) s)).QueueLaw :=
    h.freed (i := tierOf r.lock) (y := none) (by simp [setSlot]) (by simp) (by simpa using cancelRequest_sublist _ s)
      ((hasEntry_congr (by simp)).trans (cancelRequest_rest hrest)) (by simp)
  refine evaluateOrigin_queueLaw _ ?_
  cases n with
  | none => exact hempty
  | some x => exact hempty.of_eq (by simp) (by simp) (by simp)

theorem enterWaiting_queueLaw (g : Generation) (hrest : s.attempt = []) (hr : recordFor s l = some r)
    (hstate : r.state ≠ .yielding) (h : s.QueueLaw) : (enterWaiting g r s).QueueLaw := by
  have hsettled := h.settled (recordFor_some.mp hr).1 hstate
  refine evaluateOrigin_queueLaw _ (h.freed (i := tierOf r.lock) (y := some { r with state := .waiting }) (by simp [setSlot])
    (by simp) (by simpa using cancelRequest_sublist _ s) ?_ ?_)
  · rw [hasEntry_congr (s := cancelRequest (tierOf r.lock) s) (by simp)]
    exact cancelRequest_rest hrest
  · rintro x ⟨⟩
    exact State.mayDefer_of_none hsettled

/-- The CLAIM of a CLAIM_CANCEL record is CONTENDING or has left the queue (R111, R114). -/
theorem enterWithdrawing_queueLaw (hp : present s.sc.state = true) (hrest : s.attempt = []) (hr : recordFor s l = some r)
    (hstate : r.state = .claimCancel) (h : s.QueueLaw) : (enterWithdrawing r s).QueueLaw := by
  obtain ⟨hslot, rfl⟩ := recordFor_some.mp hr
  have hsettled := h.settled hslot (by simp [hstate])
  have hfree : hasEntry (.slot (tierOf r.lock)) s = false := h.slotFree hp fun x hx e he => by
    obtain rfl : r = x := Option.some.inj (hslot.symm.trans hx)
    rw [← Bool.not_eq_true, fits_claimCancel hstate, State.attempt_nil.mp hrest e he]
    simp
  unfold enterWithdrawing
  split
  · refine h.freed rfl rfl (List.Sublist.refl _) hfree ?_
    rintro x ⟨⟩
    exact State.mayDefer_of_none hsettled
  · exact h.filled hp hfree rfl rfl rfl rfl ((fits_withdrawing rfl).mpr rfl) (State.mayDefer_of_none hsettled)

/-- Once the WITHDRAW has left, the slot takes the YIELD deferred behind it (R119). -/
theorem withdrawLeft_queueLaw (hp : present s.sc.state = true) (hr : recordFor s l = some r)
    (hfree : hasEntry (.slot (tierOf l)) s = false) (h : s.QueueLaw) : (withdrawLeft r s).QueueLaw := by
  obtain ⟨hslot, rfl⟩ := recordFor_some.mp hr
  cases hd : r.deferred with
  | none =>
    simp only [withdrawLeft, hd]
    refine h.freed rfl rfl (List.Sublist.refl _) hfree ?_
    rintro x ⟨⟩
    exact State.mayDefer_of_none rfl
  | some why =>
    have hyielding := (h.deferred _ r hslot (by simp [hd])).1
    simp only [withdrawLeft, hd]
    exact h.filled hp hfree rfl rfl rfl rfl
      ((fits_yielding (r := { r with withdrawAsked := false, deferred := none }) hyielding).mpr (.inr ⟨why, rfl, rfl⟩))
      (State.mayDefer_of_none rfl)

/-- With nothing CONTENDING, a record whose withdraw-asked mark is set behind a grant has no entry. -/
theorem slotFree_of_asked (hp : present s.sc.state = true) (hrest : s.attempt = []) (hr : recordFor s l = some r)
    (hstate : r.state = .held ∨ r.state = .yielding) (hasked : r.withdrawAsked = true) (h : s.QueueLaw) :
    hasEntry (.slot (tierOf l)) s = false :=
  h.slotFree hp fun x hx e he => by
    obtain rfl : r = x := Option.some.inj ((recordFor_some.mp hr).1.symm.trans hx)
    have hqueued := State.attempt_nil.mp hrest e he
    rw [← Bool.not_eq_true]
    rcases hstate with hstate | hstate
    · rw [fits_held hstate, hqueued]
      simp
    · rw [fits_yielding hstate, hqueued, hasked]
      simp

theorem takeGrant_queueLaw (g : Generation) (hrest : s.attempt = []) (hr : recordFor s l = some r) (h : s.QueueLaw) :
    (takeGrant g r s).QueueLaw := by
  unfold takeGrant
  split
  case h_5 => exact h
  all_goals
    rename_i hstate
    exact enterHeld_queueLaw _ _ _ hrest hr (by simp [hstate]) h

/-- A station with a record has presence duties (R103). -/
theorem State.StateLaw.present_of_record (hs : s.StateLaw) (hr : recordFor s l = some r) : present s.sc.state = true := by
  by_contra hp
  rw [recordFor_empty (hs.presence (by simpa using hp)).2] at hr
  cases hr

theorem takeOutcome_queueLaw (o : LockOutcome) (hs : s.StateLaw) (hrest : s.attempt = []) (h : s.QueueLaw) :
    (takeOutcome o s).QueueLaw := by
  cases hr : recordFor s o.lock with
  | none => simpa only [takeOutcome, hr] using h
  | some r =>
    have hp := hs.present_of_record hr
    simp only [takeOutcome, hr]
    split
    case h_1 => exact takeGrant_queueLaw _ hrest hr h
    case h_2 hstate | h_10 hstate => exact enterWaiting_queueLaw _ hrest hr (by simp [hstate]) h
    case h_3 hstate | h_11 hstate => exact enterWithdrawing_queueLaw hp hrest hr hstate h
    case h_6 =>
      exact emptySlot_queueLaw _ r (by simpa using hrest) (h.of_eq (by simp) (by simp) (by simp))
    case h_8 hstate | h_9 hstate => exact enterHeld_queueLaw _ _ _ hrest hr (by simp [hstate]) h
    case h_14 hstate =>
      split
      next hasked => exact withdrawLeft_queueLaw hp hr (slotFree_of_asked hp hrest hr (.inl hstate) hasked h) h
      next => exact h
    case h_15 hstate =>
      split
      next hasked => exact withdrawLeft_queueLaw hp hr (slotFree_of_asked hp hrest hr (.inr hstate) hasked h) h
      next => exact h
    case h_16 => split <;> exact emptySlot_queueLaw _ r hrest h
    case h_18 => exact h
    all_goals exact emptySlot_queueLaw _ r hrest h

theorem takeOutcomes_queueLaw (outcomes : List LockOutcome) (hs : s.StateLaw) (hrest : s.attempt = []) (h : s.QueueLaw) :
    (takeOutcomes outcomes s).QueueLaw := by
  unfold takeOutcomes
  generalize outcomes.filter (fun o => o.subject == s.station) = m
  induction m generalizing s with
  | nil => exact h
  | cons o m ih =>
    exact ih ((takeOutcome_tracks o s).stateLaw hs) (by simpa using hrest) (takeOutcome_queueLaw o hs hrest h)

end Sys2Proof.Machine
end

section
/-! PROOFS. The law of the outbound queue under the reactions to a report (R38, R71, R148): the Presence Monitor and the Transfer Controller tend
the station entries, and a change of station state finds the queue empty or leaves discarded entries alone in it. -/

namespace Sys2Proof.Machine

variable {s t : State} {e : Entry} {rep : Report}

/-! ### The Presence Monitor and the Transfer Controller -/

theorem decideEviction_tends (s : State) : s.TendsQueue (decideEviction s) := by
  unfold decideEviction
  split
  next hopen =>
    simp only [Bool.and_eq_true, Bool.not_eq_true'] at hopen
    split
    · exact .placed hopen.2 hopen.1
    · exact .refl s
  next => exact .refl s

theorem revalidateEvict_tends (s : State) : s.TendsQueue (revalidateEvict s) := by
  unfold revalidateEvict
  split
  · exact (State.TendsQueue.cancelled _ s).trans (decideEviction_tends _)
  · exact .refl s

theorem revalidate_tends (s : State) : s.TendsQueue (revalidate s) := by
  have hstale : s.TendsQueue (removeStale s) := .cancelled _ s
  have haged : s.TendsQueue (if staleEntry .beacon s then (removeStale s).withPm { (removeStale s).pm with beaconAge := none }
      else removeStale s) := by
    split
    · exact hstale.trans (.of_eq rfl rfl rfl)
    · exact hstale
  unfold revalidate
  dsimp only
  split
  · exact haged.trans (decideEviction_tends _)
  · exact haged

theorem keepFeeding_tends (s : State) : s.TendsQueue (keepFeeding s) := by
  unfold keepFeeding
  split
  next hduty =>
    split
    · exact .refl s
    next hnone =>
      simp only [feederDuty, Bool.and_eq_true] at hduty
      exact .placed (c := .page) (by simpa [ownerOf] using hnone) hduty.1.1
  next => exact .cancelled _ s

theorem ownFrameApplied_tends (k : Kind) (s : State) : s.TendsQueue (ownFrameApplied k s) := by
  have htold : s.TendsQueue (s.withPm { s.pm with ownContact := 0, contact := false }) := .of_eq rfl rfl rfl
  unfold ownFrameApplied
  dsimp only
  (repeat' split) <;> try exact htold
  exact (htold.trans (.cancelled _ _)).trans (.of_eq rfl rfl rfl)

theorem presenceReport_tends (rep : Report) (s : State) : s.TendsQueue (presenceReport rep s) := by
  have hsender : s.TendsQueue (senderReport rep s) := by
    unfold senderReport
    split
    · exact ownFrameApplied_tends _ s
    · exact .of_eq (by simp) (by simp) (by simp)
  exact hsender.trans (.of_eq (by simp) (by simp) (by simp [presenceReport]))

/-! ### Discarded entries -/

/-- No entry but discarded ones, which are CONTENDING (R155). -/
def State.onlyDiscards (s : State) : Prop := ∀ e ∈ s.oq.entries, e.contending = true ∧ e.discard = true

theorem onlyDiscards_of_nil (h : s.oq.entries = []) : s.onlyDiscards := by simp [State.onlyDiscards, h]

theorem hasEntry_nil (h : s.oq.entries = []) (o : Owner) : hasEntry o s = false := by simp [hasEntry, h]

/-- Off the bus, with nothing but discarded entries, the law holds. -/
theorem State.QueueLaw.of_discards (hapart : s.OwnersApart) (hd : s.onlyDiscards) (hv : voting s.sc.state = false)
    (hrt : s.rt = .empty) : s.QueueLaw where
  apart := hapart
  entry e he := by
    obtain ⟨hc, hdiscard⟩ := hd e he
    rw [entryLawful_discarded hdiscard, hc, hv]
    rfl
  deferred i r hr := by simp [hrt, RequestTracker.empty] at hr

theorem State.QueueLaw.of_nil (hq : s.oq.entries = []) (hrt : s.rt = .empty) : s.QueueLaw where
  apart := by simp [State.OwnersApart, hq]
  entry := by simp [hq]
  deferred i r hr := by simp [hrt, RequestTracker.empty] at hr

/-- Without presence duties every entry that is not discarded is a joining entry. -/
theorem State.QueueLaw.joiningEntry (h : s.QueueLaw) (hp : present s.sc.state = false) (he : e ∈ s.oq.entries)
    (hd : e.discard = false) : ownerOf e.content = .joining := by
  have hlaw := h.entry e he
  cases ho : ownerOf e.content with
  | joining => rfl
  | _ => simp [State.entryLawful, hd, ho, hp] at hlaw

theorem State.QueueLaw.onlyDiscards (h : s.QueueLaw) (hp : present s.sc.state = false)
    (hfree : ∀ e ∈ s.oq.entries, e.discard = false → ownerOf e.content ≠ .joining) : s.onlyDiscards := by
  intro e he
  have hd : e.discard = true := by
    by_contra hd
    have hd : e.discard = false := by simpa using hd
    exact hfree e he hd (h.joiningEntry hp he hd)
  exact ⟨(h.discarded he hd).1, hd⟩

/-- At a voting station, or with no attempt under way, no entry is discarded. -/
theorem State.QueueLaw.nil_of_discards (h : s.QueueLaw) (hd : s.onlyDiscards)
    (hquiet : s.attempt = [] ∨ voting s.sc.state = true) : s.oq.entries = [] := by
  rw [List.eq_nil_iff_forall_not_mem]
  intro e he
  obtain ⟨hc, hdiscard⟩ := hd e he
  rcases hquiet with hrest | hv
  · rw [State.attempt_nil.mp hrest e he] at hc
    cases hc
  · rw [(h.discarded he hdiscard).2] at hv
    cases hv

/-- The station states with no entry of their own in the queue (R78, R82, R84, R143). -/
theorem State.QueueLaw.onlyDiscards_of_state (h : s.QueueLaw) (hp : present s.sc.state = false)
    (hf : s.sc.state ≠ .founding) (ha : s.sc.state ≠ .asking) (he : s.sc.state ≠ .enrolling) : s.onlyDiscards :=
  h.onlyDiscards hp fun e hmem hd ho => by
    have hdeparting : s.sc.state ≠ .departing := by rintro hs; rw [hs] at hp; cases hp
    have hlaw := entryLawful_joining hd ho (h.entry e hmem)
    simp [hf, ha, he, hdeparting] at hlaw

/-- Without presence duties, with no joining entry and nothing CONTENDING, the queue is empty. -/
theorem State.QueueLaw.nil_of_free (h : s.QueueLaw) (hp : present s.sc.state = false) (hfree : hasEntry .joining s = false)
    (hquiet : s.attempt = [] ∨ voting s.sc.state = true) : s.oq.entries = [] :=
  h.nil_of_discards (h.onlyDiscards hp fun e he _ => (hasEntry_false _).mp hfree e he) hquiet

/-! ### Changes of station state -/

theorem purgeAll_apart (h : s.OwnersApart) : (purgeAll s).OwnersApart := by
  have howners : (purgeAll s).oq.entries.map (ownerOf ·.content) =
      (s.oq.entries.filter (·.contending)).map (ownerOf ·.content) := by
    simp [purgeAll, Function.comp_def]
  unfold State.OwnersApart
  rw [howners]
  exact List.Nodup.sublist (List.filter_sublist.map _) h

theorem enterState_apart (x : StationState) (h : s.OwnersApart) : (enterState x s).OwnersApart := by
  unfold State.OwnersApart
  rw [enterState_oq]
  split
  · exact purgeAll_apart h
  · exact h

theorem enterState_onlyDiscards (x : StationState) (h : s.onlyDiscards) : (enterState x s).onlyDiscards := by
  intro e he
  rw [enterState_oq] at he
  split at he
  · exact purgeAll_entries s e he
  · exact h e he

theorem present_false_of_voting {x : StationState} (h : voting x = false) : present x = false := by
  cases x <;> simp_all [present, voting]

/-- The station stays off the bus with discarded entries, or leaves the voting states, which discards what is CONTENDING (R155). -/
theorem enterState_queueLaw {x : StationState} (hx : voting x = false) (h : s.OwnersApart)
    (hd : voting s.sc.state = true ∨ s.onlyDiscards) : (enterState x s).QueueLaw := by
  refine .of_discards (enterState_apart x h) ?_ (by rw [enterState_sc]; exact hx)
    (by simp [enterState_rt, present_false_of_voting hx])
  rcases hd with hv | hd
  · intro e he
    rw [enterState_oq, if_pos ⟨hv, hx⟩] at he
    exact purgeAll_entries s e he
  · exact enterState_onlyDiscards x hd

theorem enterState_nil (x : StationState) (h : s.oq.entries = []) : (enterState x s).oq.entries = [] := by
  rw [enterState_oq]
  split <;> simp [purgeAll, h]

/-- A drop leaves discarded entries alone, whatever entries there were (R95, R155). -/
theorem drop_dropped_queueLaw {c : DropCause} (hd : dropsIn c s.sc.state = true) (h : s.OwnersApart) :
    (drop c s).QueueLaw ∧ voting (drop c s).sc.state = false := by
  obtain ⟨⟨-, hrt, -, -, -, hentries⟩, -, hsc, -⟩ := drop_dropped s c hd
  obtain ⟨-, hvoting, -⟩ := dropState_idle s c
  have hv : voting (drop c s).sc.state = false := by rw [hsc]; exact hvoting
  have hoq : (drop c s).oq = (purgeAll s).oq := by
    simp [drop, hd, enterState_oq, dropsIn_voting c _ hd, hvoting, purgeAll_twice]
    simp [purgeAll]
  refine ⟨.of_discards ?_ hentries hv hrt, hv⟩
  unfold State.OwnersApart
  rw [hoq]
  exact purgeAll_apart h

theorem drop_queueLaw (c : DropCause) (h : s.QueueLaw) : (drop c s).QueueLaw := by
  cases hd : dropsIn c s.sc.state
  · simpa [drop, hd] using h
  · exact (drop_dropped_queueLaw hd h.apart).1

theorem giveUpJoin_queueLaw (k : NoticeKind) (m : Option Station) (h : s.OwnersApart)
    (hd : voting s.sc.state = true ∨ s.onlyDiscards) : (giveUpJoin k m s).QueueLaw :=
  (enterState_queueLaw (x := .ready) rfl h hd).of_eq (by simp [giveUpJoin]) (by simp [giveUpJoin]) (by simp [giveUpJoin])

theorem ask_queueLaw (hq : s.oq.entries = []) : (ask s).QueueLaw := by
  have hentered : (enterState .asking s).QueueLaw := .of_nil (enterState_nil _ hq) (by simp [enterState_rt, present])
  refine hentered.placed .syncAsk (hasEntry_nil (enterState_nil _ hq) _) ?_
  simp [State.entryLawful, newEntry, ownerOf, enterState_sc, StationController.inState]

theorem otherFound_queueLaw (f : Frame) (hq : s.oq.entries = []) : (otherFound f s).QueueLaw := by
  unfold otherFound
  split
  · exact ask_queueLaw hq
  · exact giveUpJoin_queueLaw _ _ (by simp [State.OwnersApart, hq]) (.inr (onlyDiscards_of_nil hq))

theorem examinePins_queueLaw (h : s.QueueLaw) : (examinePins s).QueueLaw := by
  have hpins (ps : List Pin) (w : State) (hw : w.QueueLaw) : (ps.foldl (fun t p => evaluatePin p t) w).QueueLaw := by
    induction ps generalizing w with
    | nil => exact hw
    | cons p ps ih => exact ih _ (evaluatePin_queueLaw p hw)
  exact hpins _ _ (h.of_eq rfl rfl rfl)

/-- A station comes to MEMBER with an empty hold list and an empty queue (R72, R103). -/
theorem enterMember_queueLaw (k : NoticeKind) (hq : s.oq.entries = []) (hrt : s.rt = .empty) : (enterMember k s).QueueLaw :=
  examinePins_queueLaw (.of_nil (by simpa using hq) (by simpa using hrt))

theorem found_queueLaw (hq : s.oq.entries = []) (hrt : s.rt = .empty) : (found s).QueueLaw :=
  enterMember_queueLaw _ (by simpa using enterState_nil .member hq) (by simp [enterState_rt, hrt])

theorem enterCollecting_queueLaw (q : BusSeq) (page : PageZero) (hq : s.oq.entries = []) :
    (enterCollecting q page s).QueueLaw :=
  .of_nil (by simpa [enterCollecting] using enterState_nil .collecting hq) (by simp [enterCollecting, enterState_rt, present])

theorem observePageZero_queueLaw (f : Frame) (hq : s.oq.entries = []) (h : s.QueueLaw) : (observePageZero f s).QueueLaw := by
  unfold observePageZero
  (repeat' split) <;> try exact h
  · exact enterCollecting_queueLaw _ _ hq
  · exact h.of_kept rfl rfl rfl rfl

/-- An accepted frame is observed with nothing CONTENDING; an own joining frame has then left the queue (R152). -/
theorem observe_queueLaw (own : Bool) (f : Frame) (hs : s.StateLaw) (hrest : s.attempt = []) (h : s.QueueLaw)
    (hfree : own = true → f.kind = .found ∨ f.kind = .syncAsk → hasEntry .joining s = false) : (observe own f s).QueueLaw := by
  unfold observe
  split
  next hstate =>
    have hq := h.nil_of_discards (h.onlyDiscards_of_state (by simp [hstate, present]) (by simp [hstate]) (by simp [hstate])
      (by simp [hstate])) (.inl hrest)
    split
    · exact otherFound_queueLaw f hq
    · exact ask_queueLaw hq
  next hstate =>
    have hp : present s.sc.state = false := by simp [hstate, present]
    split
    next hk =>
      split
      next hown => exact found_queueLaw (h.nil_of_free hp (hfree hown (.inl hk)) (.inl hrest)) (hs.presence hp).2
      next =>
        have hcancelled := (State.TendsQueue.cancelled (fun e => e.content == .found) s).queueLaw h
        refine otherFound_queueLaw f (hcancelled.nil_of_discards (hcancelled.onlyDiscards (by simpa using hp)
          fun e he hd ho => ?_) (.inl (by simpa using hrest)))
        have hlaw := entryLawful_joining hd ho (hcancelled.entry e he)
        simp only [cancelQueued, State.withEntries_oq, List.mem_filter] at he
        simp [hstate] at hlaw
        simp [State.attempt_nil.mp hrest e he.1, hlaw] at he
    next => exact h
  next hstate =>
    split
    next hown =>
      have hq := h.nil_of_free (by simp [hstate, present]) (hfree hown.2 (.inr hown.1)) (.inl hrest)
      exact enterState_queueLaw rfl h.apart (.inr (onlyDiscards_of_nil hq))
    next => exact h
  next hstate =>
    have hq := h.nil_of_discards (h.onlyDiscards_of_state (by simp [hstate, present]) (by simp [hstate]) (by simp [hstate])
      (by simp [hstate])) (.inl hrest)
    split
    · exact observePageZero_queueLaw f hq h
    · exact h
  next => exact h

/-- A joining frame abandoned has left an empty queue (R80, R81, R90, R151). -/
theorem joinAbandoned_queueLaw (c : Content) (hrest : s.attempt = []) (hfree : hasEntry .joining s = false) (h : s.QueueLaw) :
    (joinAbandoned c s).QueueLaw := by
  have hgiven (hp : present s.sc.state = false) : (giveUpJoin .joinFailed none s).QueueLaw :=
    giveUpJoin_queueLaw _ _ h.apart (.inr (onlyDiscards_of_nil (h.nil_of_free hp hfree (.inl hrest))))
  unfold joinAbandoned
  split
  case h_4 => exact h
  all_goals
    rename_i hstate
    exact hgiven (by simp [hstate, present])

theorem roundOut_queueLaw (hp : present s.sc.state = false) (hf : s.sc.state ≠ .founding) (ha : s.sc.state ≠ .asking)
    (he : s.sc.state ≠ .enrolling) (h : s.QueueLaw) : (roundOut s).QueueLaw := by
  have hd := h.onlyDiscards_of_state hp hf ha he
  unfold roundOut
  dsimp only
  split
  · exact enterState_queueLaw rfl h.apart (.inr hd)
  · exact giveUpJoin_queueLaw _ _ h.apart (.inr hd)

/-! ### The reactions to a report -/

/-- The own DEPART applied ends the presence whatever the queue holds (R93, R155). -/
theorem ownDepart_departs (hown : rep.own = true) (hk : rep.kind = .depart) (happlied : rep.disposition = .applied)
    (hstate : s.sc.state = .departing) (h : s.OwnersApart) : (ownDepart rep s).QueueLaw := by
  simp only [ownDepart, hown, hk, hstate, happlied, and_self, if_true]
  exact (enterState_queueLaw (x := .ready) rfl h (.inl (by simp [hstate, voting]))).of_eq (by simp) (by simp) (by simp)

/-- The DEPART of a stale membership makes room for a new ENROL (R91, R143). -/
theorem staleDepartLeft_queueLaw (hs : s.StateLaw) (hstate : s.sc.state = .enrolling) (hfree : hasEntry .joining s = false)
    (h : s.QueueLaw) : (staleDepartLeft s).QueueLaw := by
  have hp : present s.sc.state = false := by simp [hstate, present]
  have hq : s.oq.entries = [] := h.nil_of_free hp hfree (.inr (by simp [hstate, voting]))
  have hmark : (s.withSc { s.sc with staleMark := false }).QueueLaw := .of_nil hq (hs.presence hp).2
  unfold staleDepartLeft
  dsimp only
  split
  · exact hmark
  · exact hmark.placed .enrol hfree (by simp [State.entryLawful, newEntry, ownerOf, hstate])

theorem ownDepart_queueLaw (rep : Report) (hs : s.StateLaw) (h : s.QueueLaw)
    (hfree : s.sc.state = .enrolling → rep.own = true → rep.kind = .depart → hasEntry .joining s = false) :
    (ownDepart rep s).QueueLaw := by
  by_cases hdepart : rep.own = true ∧ rep.kind = .depart
  · obtain ⟨hown, hk⟩ := hdepart
    cases hstate : s.sc.state with
    | departing =>
      by_cases happlied : rep.disposition = .applied
      · exact ownDepart_departs hown hk happlied hstate h.apart
      · simpa [ownDepart, hown, hk, hstate, happlied] using h
    | enrolling =>
      simp only [ownDepart, hown, hk, hstate, and_self, if_true]
      split
      · exact staleDepartLeft_queueLaw hs hstate (hfree hstate hown hk) h
      · exact h
    | _ => simpa [ownDepart, hown, hk, hstate] using h
  · simpa only [ownDepart, hdepart, if_false] using h

/-- The own ENROL brings the station to MEMBER, or gives its place to the DEPART of a stale membership (R90, R91). -/
theorem ownEnrol_queueLaw (rep : Report) (hs : s.StateLaw) (h : s.QueueLaw)
    (hfree : s.sc.state = .enrolling → rep.own = true → rep.enrol ≠ none → hasEntry .joining s = false) :
    (ownEnrol rep s).QueueLaw := by
  unfold ownEnrol
  split
  next henrol =>
    obtain ⟨hown, hstate⟩ := henrol
    have hp : present s.sc.state = false := by simp [hstate, present]
    have hrt := (hs.presence hp).2
    have hnil (hsome : rep.enrol ≠ none) : s.oq.entries = [] :=
      h.nil_of_free hp (hfree hstate hown hsome) (.inr (by simp [hstate, voting]))
    split
    next hsome =>
      exact enterMember_queueLaw _ (enterState_nil _ (hnil (by simp [hsome]))) (by simp [enterState_rt, hrt])
    next hsome =>
      have hq := hnil (by simp [hsome])
      have hmark : (s.withSc { s.sc with staleMark := true }).QueueLaw := .of_nil hq hrt
      exact hmark.placed .depart (hasEntry_nil hq _) (by simp [State.entryLawful, newEntry, ownerOf, hstate])
    next => exact h
  next => exact h

theorem roundBroken_queueLaw (rep : Report) (h : s.QueueLaw) : (roundBroken rep s).QueueLaw := by
  unfold roundBroken
  (repeat' split) <;> try exact h
  all_goals
    rename_i hstate _
    exact enterState_queueLaw rfl h.apart (.inl (by simp [hstate, voting]))

/-- A collection leaves an empty queue for the ENROL (R87). -/
theorem collectionDone_queueLaw (h : s.QueueLaw) : (collectionDone s).QueueLaw := by
  unfold collectionDone
  split
  next hdone =>
    obtain ⟨hstate, -⟩ := hdone
    have hq := h.nil_of_discards (h.onlyDiscards_of_state (by simp [hstate, present]) (by simp [hstate]) (by simp [hstate])
      (by simp [hstate])) (.inr (by simp [hstate, voting]))
    have hentered : (enterState .enrolling s).QueueLaw := .of_nil (enterState_nil _ hq) (by simp [enterState_rt, present])
    refine hentered.placed .enrol (hasEntry_nil (enterState_nil _ hq) _) ?_
    simp [State.entryLawful, newEntry, ownerOf, enterState_sc, StationController.inState]
  next => exact h

theorem stationReport_queueLaw (rep : Report) (hs : s.StateLaw) (h : (ownDepart rep s).QueueLaw)
    (hkind : rep.enrol ≠ none → rep.kind = .enrol)
    (hfree : s.sc.state = .enrolling → rep.own = true → rep.kind = .enrol → hasEntry .joining s = false) :
    (stationReport rep s).QueueLaw := by
  have henrol : (ownEnrol rep (ownDepart rep s)).QueueLaw := by
    refine ownEnrol_queueLaw rep (ownDepart_stateLaw rep hs) h fun hstate hown hsome => ?_
    have hsame : ownDepart rep s = s := by simp [ownDepart, hkind hsome]
    rw [hsame] at hstate ⊢
    exact hfree hstate hown (hkind hsome)
  have hdone := collectionDone_queueLaw (roundBroken_queueLaw rep henrol)
  unfold stationReport
  dsimp only
  split
  · exact drop_queueLaw _ hdone
  · exact hdone

/-- The Presence Monitor tends its entries, or an ouster takes the station off the bus (R69, R71). -/
theorem presenceReactions_cases (rep : Report) (h : s.OwnersApart) :
    s.TendsQueue (presenceReactions rep s) ∨
      ((presenceReactions rep s).QueueLaw ∧ voting (presenceReactions rep s).sc.state = false) := by
  have htail (w : State) : w.TendsQueue (revalidateEvict (if rep.own ∧ rep.kind = .evict then decideEviction w else w)) := by
    refine State.TendsQueue.trans ?_ (revalidateEvict_tends _)
    split
    · exact decideEviction_tends w
    · exact .refl w
  have hreport := presenceReport_tends rep s
  unfold presenceReactions
  split
  next hp =>
    cases houst : ousts rep s with
    | false => exact .inl (hreport.trans (htail _))
    | true =>
      have hdrops : dropsIn .ouster (presenceReport rep s).sc.state = true := by simpa [dropsIn] using hp
      obtain ⟨hlaw, hv⟩ := drop_dropped_queueLaw hdrops (hreport.apart h)
      exact .inr ⟨(htail _).queueLaw hlaw, (congrArg voting (htail _).state).trans hv⟩
  next => exact .inl (.refl s)

/-- Up to the Station Controller: with presence duties the Request Tracker and the Presence Monitor react, and the own DEPART clears the hold
list before it clears the queue (R38, R93, R124). -/
theorem departed_queueLaw (hp : present s.sc.state = true) (happlied : rep.disposition = .applied) (hs : s.StateLaw)
    (hrest : s.attempt = []) (h : s.QueueLaw) :
    (ownDepart rep (presenceReactions rep (departHolds rep (takeOutcomes rep.outcomes s)))).QueueLaw ∧
    (presenceReactions rep (departHolds rep (takeOutcomes rep.outcomes s))).sc.state ≠ .enrolling := by
  have htaken := takeOutcomes_queueLaw rep.outcomes hs hrest h
  have hstate := (takeOutcomes_tracks rep.outcomes s).stateLaw hs
  have hsame : (takeOutcomes rep.outcomes s).sc.state = s.sc.state := by simp
  generalize takeOutcomes rep.outcomes s = w at htaken hstate hsame ⊢
  have hdeparted := departHolds_stateLaw rep hstate
  have hapart : (departHolds rep w).OwnersApart := htaken.apart.sublist (by simp)
  have hreacted := presenceReactions_stateLaw rep hdeparted
  have hcases := presenceReactions_cases rep hapart
  have hholds : (departHolds rep w).sc.state = s.sc.state := by simp [hsame]
  have hnot : (presenceReactions rep (departHolds rep w)).sc.state ≠ .enrolling := by
    rcases hcases with htends | ⟨-, hv⟩
    · rw [htends.state, hholds]
      rintro heq
      rw [heq] at hp
      cases hp
    · rintro heq
      rw [heq] at hv
      cases hv
  refine ⟨?_, hnot⟩
  rcases hcases with htends | ⟨hlaw, -⟩
  · by_cases hown : rep.own = true ∧ rep.kind = .depart ∧ rep.disposition = .applied ∧ w.sc.state = .departing
    · exact ownDepart_departs hown.1 hown.2.1 happlied (by rw [htends.state, hholds, ← hsame, hown.2.2.2])
        (htends.apart hapart)
    · have hkept : departHolds rep w = w := by simp only [departHolds, hown, if_false]
      rw [hkept] at htends hreacted hnot ⊢
      exact ownDepart_queueLaw rep hreacted (htends.queueLaw htaken) fun heq => absurd heq hnot
  · exact ownDepart_queueLaw rep hreacted hlaw fun heq => absurd heq hnot

/-- The reactions to the report of an accepted frame: nothing is CONTENDING, and an own joining frame has left the queue (R38, R152). -/
theorem handOn_queueLaw (hs : s.StateLaw) (hrest : s.attempt = []) (h : s.QueueLaw)
    (hkind : rep.enrol ≠ none → rep.kind = .enrol)
    (hfree : rep.own = true → rep.kind = .depart ∨ rep.kind = .enrol → hasEntry .joining s = false) :
    (handOn rep s).QueueLaw := by
  have hstation (w : State) (hw : w = s) : (stationReport rep w).QueueLaw := by
    subst hw
    exact stationReport_queueLaw rep hs (ownDepart_queueLaw rep hs h fun _ hown hk => hfree hown (.inl hk)) hkind
      fun _ hown hk => hfree hown (.inr hk)
  unfold handOn
  split
  next happlied =>
    have hreport : (stationReport rep (presenceReactions rep (departHolds rep (takeOutcomes rep.outcomes s)))).QueueLaw := by
      cases hp : present s.sc.state with
      | true =>
        obtain ⟨hlaw, hnot⟩ := departed_queueLaw (rep := rep) hp happlied hs hrest h
        have hstate := presenceReactions_stateLaw rep
          (departHolds_stateLaw rep ((takeOutcomes_tracks rep.outcomes s).stateLaw hs))
        exact stationReport_queueLaw rep hstate hlaw hkind fun heq => absurd heq hnot
      | false =>
        have hnot : s.sc.state ≠ .departing := by rintro heq; rw [heq] at hp; cases hp
        refine hstation _ ?_
        rw [takeOutcomes_empty _ (hs.presence hp).2]
        simp [departHolds, hnot, presenceReactions, hp]
    have hfed := (keepFeeding_tends _).queueLaw hreport
    unfold reactApplied
    dsimp only
    split
    · exact (revalidate_tends _).queueLaw hfed
    · exact hfed
  next =>
    unfold reactOther
    dsimp only
    refine (keepFeeding_tends _).queueLaw ?_
    split
    next hown =>
      have hdecided := decideEviction_tends s
      have hlaw : (decideEviction s).StateLaw := hs.of_eq (by simp) (by simp) (by simp) (by simp) (by simp)
      refine stationReport_queueLaw rep hlaw (ownDepart_queueLaw rep hlaw (hdecided.queueLaw h) ?_) hkind ?_
      · intro _ _ hk
        rw [hown.2] at hk
        cases hk
      · intro _ _ hk
        rw [hown.2] at hk
        cases hk
    next => exact hstation s rfl

end Sys2Proof.Machine
end

section
/-! PROOFS. The law of the outbound queue under the attempts (R149 to R155), the accepted frames (R152), the host's commands and the timers. -/

namespace Sys2Proof.Machine

variable {s t : State} {e : Entry} {c : Content} {f : Frame} {i : Tier} {l : Lock} {r : HoldRecord}

/-! ### The attempt's entry -/

/-- Contents and slots stay, and every entry is lawful as it now stands. -/
theorem State.QueueLaw.of_contents (h : s.QueueLaw) (hrt : t.rt = s.rt) (hsc : t.sc = s.sc)
    (hcontents : t.oq.entries.map (·.content) = s.oq.entries.map (·.content))
    (hentry : ∀ e ∈ t.oq.entries, s.entryLawful e = true) : t.QueueLaw where
  apart := by
    have howners : t.oq.entries.map (ownerOf ·.content) = s.oq.entries.map (ownerOf ·.content) := by
      simpa [Function.comp_def] using congrArg (List.map ownerOf) hcontents
    unfold State.OwnersApart
    rw [howners]
    exact h.apart
  entry e he := by
    rw [entryLawful_congr (s := s) (by rw [hsc]) (by rw [hsc]) fun _ _ => by rw [hrt]]
    exact hentry e he
  deferred i r hr := by
    have hdefer := h.deferred i r (hrt ▸ hr)
    rwa [State.mayDefer, hsc]

/-- An entry of an owner that is no slot is looked at by its content alone, unless it is discarded. -/
theorem entryLawful_of_content {a : Entry} (hcontent : a.content = e.content) (hda : a.discard = false) (hd : e.discard = false)
    (hno : ∀ i, ownerOf e.content ≠ .slot i) : s.entryLawful a = s.entryLawful e := by
  unfold State.entryLawful
  rw [hcontent, hda, hd]
  cases ho : ownerOf e.content with
  | slot i => exact absurd ho (hno i)
  | joining => cases e.content <;> rfl
  | _ => rfl

/-- A lawful entry stays lawful as it contends (R149). -/
theorem entryLawful_contending (h : s.entryLawful e = true) : s.entryLawful { e with contending := true } = true := by
  have hfits (r : HoldRecord) (hfit : r.fits e = true) : r.fits { e with contending := true } = true := by
    cases hstate : r.state with
    | claiming => rwa [fits_claiming hstate] at hfit ⊢
    | claimCancel => exact (fits_claimCancel hstate).mpr ⟨((fits_claimCancel hstate).mp hfit).1, rfl⟩
    | waiting => rw [fits_waiting hstate] at hfit; cases hfit
    | withdrawing => rwa [fits_withdrawing hstate] at hfit ⊢
    | held =>
      obtain ⟨hcontent, hasked, -⟩ := (fits_held hstate).mp hfit
      exact (fits_held hstate).mpr ⟨hcontent, hasked, rfl⟩
    | yielding =>
      refine (fits_yielding hstate).mpr (((fits_yielding hstate).mp hfit).imp ?_ id)
      rintro ⟨hcontent, hasked, -⟩
      exact ⟨hcontent, hasked, rfl⟩
  by_cases hd : e.discard = true
  · rw [entryLawful_discarded hd, Bool.and_eq_true] at h
    rw [entryLawful_discarded (e := { e with contending := true }) hd, h.2]
    rfl
  · have hd : e.discard = false := by simpa using hd
    cases ho : ownerOf e.content with
    | slot i =>
      rw [entryLawful_slot hd ho, Bool.and_eq_true, Option.any_eq_true] at h
      obtain ⟨hp, r, hr, hfit⟩ := h
      rw [entryLawful_slot (e := { e with contending := true }) hd ho, hp, hr]
      simpa using hfits r hfit
    | _ =>
      rw [entryLawful_of_content (a := { e with contending := true }) (e := e) rfl hd hd fun i => by simp [ho]]
      exact h

theorem contendFirst_contents (p : Entry → Bool) (q : List Entry) :
    (contendFirst p q).map (·.content) = q.map (·.content) := by
  induction q with
  | nil => rfl
  | cons a q ih => cases hp : p a <;> simp [contendFirst, hp, ih]

theorem mem_contendFirst {p : Entry → Bool} {q : List Entry} (h : e ∈ contendFirst p q) :
    e ∈ q ∨ ∃ a ∈ q, e = { a with contending := true } := by
  induction q with
  | nil => cases h
  | cons a q ih =>
    cases hp : p a
    · simp only [contendFirst, hp, Bool.false_eq_true, if_false, List.mem_cons] at h
      rcases h with rfl | h
      · exact .inl (by simp)
      · rcases ih h with hmem | ⟨b, hb, rfl⟩
        · exact .inl (by simp [hmem])
        · exact .inr ⟨b, by simp [hb], rfl⟩
    · simp only [contendFirst, hp, if_true, List.mem_cons] at h
      rcases h with rfl | h
      · exact .inr ⟨a, by simp, rfl⟩
      · exact .inl (by simp [h])

theorem selectEntry_queueLaw (h : s.QueueLaw) : (selectEntry s).QueueLaw := by
  unfold selectEntry
  split
  · refine h.of_contents rfl rfl (contendFirst_contents _ _) fun e he => ?_
    rcases mem_contendFirst he with hmem | ⟨a, ha, rfl⟩
    · exact h.entry e hmem
    · exact entryLawful_contending (h.entry a ha)
  · exact h

/-- Of one attempt at most there is one entry CONTENDING. -/
theorem contending_unique (hone : s.attempt.length ≤ 1) {a b : Entry} (ha : a ∈ s.oq.entries) (hac : a.contending = true)
    (hb : b ∈ s.oq.entries) (hbc : b.contending = true) : a = b := by
  rw [State.attempt, List.length_map] at hone
  have hmem (x : Entry) (hx : x ∈ s.oq.entries) (hxc : x.contending = true) : x ∈ s.oq.entries.filter (·.contending) :=
    List.mem_filter.mpr ⟨hx, hxc⟩
  have ha' := hmem a ha hac
  have hb' := hmem b hb hbc
  match hl : s.oq.entries.filter (·.contending) with
  | [] => rw [hl] at ha'; cases ha'
  | [x] =>
    rw [hl, List.mem_singleton] at ha' hb'
    rw [ha', hb']
  | x :: y :: rest => rw [hl] at hone; simp at hone

/-- The attempt's entry returns to QUEUED, where it is lawful too (R150, R151). -/
theorem returnContending_queueLaw (n : Nat) (hone : s.attempt.length ≤ 1) (he : e ∈ s.oq.entries) (hc : e.contending = true)
    (hkeep : s.entryLawful { e with contending := false, voids := n } = true) (h : s.QueueLaw) :
    (returnContending n s).QueueLaw := by
  refine h.of_contents rfl rfl ?_ fun x hx => ?_
  · simp only [returnContending, State.withEntries_oq, List.map_map]
    refine List.map_congr_left fun x _ => ?_
    simp only [Function.comp_apply]
    split <;> rfl
  · simp only [returnContending, State.withEntries_oq, List.mem_map] at hx
    obtain ⟨a, ha, rfl⟩ := hx
    split
    next hac => rwa [contending_unique hone ha hac he hc]
    next => exact h.entry a ha

theorem removeContending_queueLaw (h : s.QueueLaw) : (removeContending s).QueueLaw :=
  (State.TendsQueue.of_sublist (by simp) (by simp) (by simp) (removeContending_sublist s)).queueLaw h

/-! ### The end of an attempt without acceptance -/

/-- In DEPARTING no YIELD is deferred, and the record stays without its frame (R123, R154). -/
theorem dropRequest_queueLaw (o : Owner) (hstate : s.sc.state = .departing) (hfree : hasEntry o s = false) (h : s.QueueLaw) :
    (dropRequest o s).QueueLaw := by
  cases o with
  | slot i =>
    unfold dropRequest
    dsimp only
    split
    next r hr =>
      refine h.freed rfl rfl (List.Sublist.refl _) hfree ?_
      rintro x ⟨⟩ hd
      have hm := (h.deferred i r hr hd).2.2
      rw [hstate] at hm
      cases hm
    next => exact h
  | _ => exact h

theorem slot_of_isRequest (h : isRequest c = true) : ∃ i, ownerOf c = .slot i := by
  unfold isRequest at h
  split at h
  next i hi => exact ⟨i, hi⟩
  next => cases h

/-- A request frame comes back to its record: it is QUEUED again for a record that still wants it, and leaves otherwise (R111, R119, R151). -/
theorem requestReturned_queueLaw (abandoned : Bool) (n : Nat) (hone : s.attempt.length ≤ 1) (he : e ∈ s.oq.entries)
    (hc : e.contending = true) (hd : e.discard = false) (hreq : isRequest e.content = true) (h : s.QueueLaw) :
    (requestReturned abandoned n e.content s).QueueLaw := by
  obtain ⟨i, ho⟩ := slot_of_isRequest hreq
  have hlaw := h.entry e he
  rw [entryLawful_slot hd ho, Bool.and_eq_true, Option.any_eq_true] at hlaw
  obtain ⟨hp, r, hr, hfit⟩ := hlaw
  have hqueued (hfits : r.fits { e with contending := false, voids := n } = true) : (returnContending n s).QueueLaw := by
    refine returnContending_queueLaw n hone he hc ?_ h
    rw [entryLawful_slot (e := { e with contending := false, voids := n }) hd ho, hp, hr]
    simpa using hfits
  have hremoved := removeContending_queueLaw h
  have hfree := removeContending_free h.apart he hc
  have hrest := removeContending_attempt s
  have hrecord {l : Lock} (hl : ownerOf e.content = .slot (tierOf l)) (hlock : l = r.lock) : recordFor s l = some r := by
    obtain rfl := Owner.slot.inj (ho.symm.trans hl)
    exact recordFor_some.mpr ⟨hr, hlock.symm⟩
  cases hstate : r.state with
  | claiming =>
    obtain ⟨m, hcontent⟩ := (fits_claiming hstate).mp hfit
    have hfor := hrecord (l := r.lock) (by rw [hcontent]; rfl) rfl
    rw [hcontent]
    cases abandoned with
    | true =>
      rw [requestReturned_abandoned n hfor hstate]
      exact emptySlot_queueLaw _ r (by simp) (hremoved.of_eq (by simp) (by simp) (by simp))
    | false =>
      rw [requestReturned_claiming n hfor hstate]
      exact hqueued ((fits_claiming hstate).mpr ⟨m, hcontent⟩)
  | claimCancel =>
    obtain ⟨⟨m, hcontent⟩, -⟩ := (fits_claimCancel hstate).mp hfit
    have hfor := hrecord (l := r.lock) (by rw [hcontent]; rfl) rfl
    rw [hcontent, requestReturned_cancelled abandoned n hfor hstate]
    exact emptySlot_queueLaw _ r hrest hremoved
  | waiting => rw [fits_waiting hstate] at hfit; cases hfit
  | withdrawing =>
    have hcontent := (fits_withdrawing hstate).mp hfit
    have hfor := hrecord (l := r.lock) (by rw [hcontent]; rfl) rfl
    rw [hcontent, requestReturned_withdrawing abandoned n hfor hstate]
    exact hqueued ((fits_withdrawing hstate).mpr hcontent)
  | held =>
    obtain ⟨hcontent, -, -⟩ := (fits_held hstate).mp hfit
    have hfor := hrecord (l := r.lock) (by rw [hcontent]; rfl) rfl
    rw [hcontent] at hfree ⊢
    rw [requestReturned_granted abandoned n hfor (.inl hstate)]
    exact withdrawLeft_queueLaw (by simpa using hp) ((recordFor_congr (by simp) _).trans hfor) hfree hremoved
  | yielding =>
    rcases (fits_yielding hstate).mp hfit with ⟨hcontent, -, -⟩ | ⟨why, hcontent, hasked⟩
    · have hfor := hrecord (l := r.lock) (by rw [hcontent]; rfl) rfl
      rw [hcontent] at hfree ⊢
      rw [requestReturned_granted abandoned n hfor (.inr hstate)]
      exact withdrawLeft_queueLaw (by simpa using hp) ((recordFor_congr (by simp) _).trans hfor) hfree hremoved
    · rw [hcontent, requestReturned_yield]
      exact hqueued ((fits_yielding hstate).mpr (.inr ⟨why, hcontent, hasked⟩))

/-- A station entry is lawful QUEUED as it is CONTENDING. -/
theorem entryLawful_returned (n : Nat) (hd : e.discard = false) (hreq : isRequest e.content = false) :
    s.entryLawful { e with contending := false, voids := n } = s.entryLawful e := by
  refine entryLawful_of_content rfl hd hd fun i ho => ?_
  rw [isRequest_of_slot ho] at hreq
  cases hreq

theorem joining_of_abandoned (habandon : abandonable c = true) (hreq : isRequest c = false) : ownerOf c = .joining := by
  cases c <;> simp_all [abandonable, isRequest, ownerOf]

theorem returnAttempt_queueLaw (voided : Bool) (hone : s.attempt.length ≤ 1) (h : s.QueueLaw) :
    (returnAttempt voided s).QueueLaw := by
  have hclosed : (s.withLc { s.lc with sending := none }).QueueLaw := h.of_eq rfl rfl rfl
  have hsame : (s.withLc { s.lc with sending := none }).attempt = s.attempt := rfl
  unfold returnAttempt
  dsimp only
  generalize s.withLc { s.lc with sending := none } = w at hclosed hsame
  rw [← hsame] at hone
  have hremoved := removeContending_queueLaw hclosed
  split
  next => exact hclosed
  next e hfind =>
    have he : e ∈ w.oq.entries := List.mem_of_find?_eq_some hfind
    have hc : e.contending = true := List.find?_some (p := fun x : Entry => x.contending) hfind
    have hfree := removeContending_free hclosed.apart he hc
    generalize (if (voided && abandonable e.content) = true then e.voids + 1 else e.voids) = n
    split
    next => exact hremoved
    next hkept =>
      have hd : e.discard = false := by simpa using hkept
      split
      next hdrop => exact dropRequest_queueLaw _ (by simpa using hdrop.1) hfree hremoved
      next =>
        split
        next hreq => exact requestReturned_queueLaw _ n hone he hc hd hreq hclosed
        next hreq =>
          have hreq : isRequest e.content = false := by simpa using hreq
          split
          next hgone =>
            simp only [Bool.and_eq_true] at hgone
            rw [joining_of_abandoned hgone.1.2 hreq] at hfree
            exact joinAbandoned_queueLaw _ (removeContending_attempt w) hfree hremoved
          next =>
            refine returnContending_queueLaw n hone he hc ?_ hclosed
            rw [entryLawful_returned n hd hreq]
            exact hclosed.entry e he

/-! ### The line -/

theorem reportMute_queueLaw (now : Bool) (h : s.QueueLaw) : (reportMute now s).QueueLaw := by
  unfold reportMute
  split
  · exact drop_queueLaw _ h
  · exact h

theorem reportDuplicate_queueLaw (now : Bool) (h : s.QueueLaw) : (reportDuplicate now s).QueueLaw := by
  unfold reportDuplicate
  split
  · exact drop_queueLaw _ h
  · exact h

theorem voidOwn_queueLaw (f : Frame) (rd : Reading) (hone : s.attempt.length ≤ 1) (h : s.QueueLaw) :
    (voidOwn f rd s).QueueLaw := by
  refine reportDuplicate_queueLaw _ (reportMute_queueLaw _ (returnAttempt_queueLaw true ?_
    (h.of_eq (by simp) (by simp) (by simp))))
  rwa [State.attempt_of_oq (s := s) (by simp)]

theorem endReceived_queueLaw (x : Received) (rd : Reading) (h : s.QueueLaw) : (endReceived x rd s).QueueLaw := by
  unfold endReceived
  split
  · exact h
  · exact reportMute_queueLaw _ (h.of_eq (by simp) (by simp) (by simp))
  · exact h.of_eq (by simp) (by simp) (by simp)

theorem startFrame_queueLaw (h : s.QueueLaw) : (startFrame s).QueueLaw := by
  unfold startFrame
  dsimp only
  split <;> exact h.of_kept rfl rfl rfl rfl

/-! ### Accepted frames -/

/-- A report names the frame it is of, and an ENROL alone has a result (R38). -/
theorem applyFrame_report (own : Bool) (f : Frame) (s : State) :
    (applyFrame own f s).2.own = own ∧ (applyFrame own f s).2.kind = f.kind ∧
    ((applyFrame own f s).2.enrol ≠ none → f.kind = .enrol) := by
  have hkind (marks : Vector Bool 64) (same : Bool) (y : Replica) : (applyKind marks same own f y).2.own = own ∧
      (applyKind marks same own f y).2.kind = f.kind ∧ ((applyKind marks same own f y).2.enrol ≠ none → f.kind = .enrol) := by
    unfold applyKind
    cases hk : f.kind <;> dsimp only <;> (repeat' split) <;> simp [plainReport, hk]
  have hpage (w : State) (rep : Report) : (installPage f.payload w rep).2.own = rep.own ∧
      (installPage f.payload w rep).2.kind = rep.kind ∧ (installPage f.payload w rep).2.enrol = rep.enrol := by
    unfold installPage
    dsimp only
    split <;> exact ⟨rfl, rfl, rfl⟩
  unfold applyFrame
  dsimp only
  split
  · rw [(hpage _ _).1, (hpage _ _).2.1, (hpage _ _).2.2]
    exact hkind _ _ _
  · exact hkind _ _ _

theorem takeFrame_report (own : Bool) (f : Frame) (s : State) :
    (takeFrame own f s).2.own = own ∧ (takeFrame own f s).2.kind = f.kind ∧
    ((takeFrame own f s).2.enrol ≠ none → f.kind = .enrol) := by
  unfold takeFrame
  split
  · exact applyFrame_report own f s
  · simp [plainReport]
  · simp [plainReport]

theorem takeFrame_queueLaw (own : Bool) (f : Frame) (h : s.QueueLaw) : (takeFrame own f s).1.QueueLaw := by
  have hstale : (takeFrame own f s).1.sc.staleMark = s.sc.staleMark := by
    rcases takeFrame_sc own f s with hsc | ⟨-, hsc⟩ <;> rw [hsc]
  exact h.of_kept (by simp) (by simp) hstale (by simp)

theorem ownAccepted_entries (k : Kind) (s : State) : (ownAccepted k s).oq.entries = (removeContending s).oq.entries := by
  obtain ⟨-, -, -, -, -, -, -, -, hentries, -⟩ := ownAccepted_effect k s
  exact hentries

theorem ownAccepted_queueLaw (k : Kind) (h : s.QueueLaw) : (ownAccepted k s).QueueLaw := by
  obtain ⟨-, hsc, -, hrt, -⟩ := ownAccepted_effect k s
  exact (State.TendsQueue.of_sublist hrt (by rw [hsc]) (by rw [hsc])
    (by rw [ownAccepted_entries]; exact removeContending_sublist s)).queueLaw h

/-- An accepted frame finds nothing CONTENDING but its own entry; the place of an own joining frame is free after it (R143, R152). -/
theorem acceptFrame_queueLaw (own : Bool) (f : Frame) (hs : s.StateLaw) (h : s.QueueLaw) (hrest : own = false → s.attempt = [])
    (hfree : own = true → ∀ c, kindOf c = f.kind → ownerOf c = .joining → hasEntry .joining (removeContending s) = false) :
    (acceptFrame own f s).QueueLaw := by
  have haccepted (w : State) (hw : w.oq = s.oq) (howned : own = true) (c : Content) (hk : f.kind = kindOf c)
      (ho : ownerOf c = .joining) : hasEntry .joining (ownAccepted f.kind w) = false := by
    have hnone := hfree howned c hk.symm ho
    rw [hasEntry_false] at hnone ⊢
    rw [ownAccepted_entries]
    simpa [removeContending, hw] using hnone
  unfold acceptFrame
  dsimp only
  split
  next hv =>
    have htaken := takeFrame_queueLaw own f h
    have hstate := takeFrame_stateLaw own f hs hv
    obtain ⟨hown, hkind, henrol⟩ := takeFrame_report own f s
    have hjoin (hsome : (takeFrame own f s).2.enrol ≠ none) : (takeFrame own f s).2.kind = .enrol := by
      rw [hkind, henrol hsome]
    cases own with
    | true =>
      refine handOn_queueLaw (ownAccepted_stateLaw _ hstate) (ownAccepted_attempt _ _) (ownAccepted_queueLaw _ htaken) hjoin
        fun _ hk => ?_
      rw [hkind] at hk
      rcases hk with hk | hk
      · exact haccepted _ (by simp) rfl .depart hk rfl
      · exact haccepted _ (by simp) rfl .enrol hk rfl
    | false =>
      refine handOn_queueLaw hstate ?_ htaken hjoin fun howned => ?_
      · rw [← hrest rfl]
        exact State.attempt_of_oq (by simp)
      · rw [hown] at howned
        cases howned
  next =>
    cases own with
    | true =>
      refine observe_queueLaw true f (ownAccepted_stateLaw _ hs) (ownAccepted_attempt _ _) (ownAccepted_queueLaw _ h)
        fun _ hk => ?_
      rcases hk with hk | hk
      · exact haccepted s rfl rfl .found hk rfl
      · exact haccepted s rfl rfl .syncAsk hk rfl
    | false => exact observe_queueLaw false f hs (hrest rfl) h fun howned => by cases howned

/-- The joining place is that of the attempt's entry where its frame is of a joining kind. -/
theorem State.Attempting.joiningFree (hatt : s.Attempting f c) (h : s.OwnersApart) {d : Content} (hk : kindOf d = f.kind)
    (ho : ownerOf d = .joining) : hasEntry .joining (removeContending s) = false := by
  have hc : c ∈ s.attempt := by rw [hatt.attempt]; simp
  simp only [State.attempt, List.mem_map, List.mem_filter] at hc
  obtain ⟨e, ⟨he, hcontending⟩, rfl⟩ := hc
  rw [hatt.frame.2.1] at hk
  have howner : ownerOf e.content = .joining := by
    revert hk ho
    cases d <;> cases e.content <;> simp [kindOf, ownerOf]
  rw [← howner]
  exact removeContending_free h he hcontending

theorem acceptedFrame_queueLaw (k : Kind) (rd : Reading) (hatt : s.AtRest ∨ ∃ f c, s.Attempting f c) (hs : s.StateLaw)
    (h : s.QueueLaw) : (acceptedFrame k rd s).QueueLaw := by
  unfold acceptedFrame
  split
  · exact h
  split
  next hline =>
    split
    next f hsending =>
      split
      next =>
        refine acceptFrame_queueLaw true f (hs.of_eq (by simp) (by simp) (by simp) (by simp) (by simp))
          (h.of_eq (by simp) (by simp) (by simp)) (fun hfalse => by cases hfalse) fun _ c hk ho => ?_
        rcases hatt with hrest | ⟨f', c', hatt⟩
        · exact absurd hline hrest.line
        · obtain rfl : f' = f := Option.some.inj (hatt.sending.symm.trans hsending)
          rw [hasEntry_congr (s := removeContending s) (by simp [removeContending])]
          exact hatt.joiningFree h.apart hk ho
      next => exact h
    next => exact h
  next hline =>
    have hrest : s.AtRest := State.AtRest.of_lawful hatt (by simp [hline]) (by simp [hline])
    split
    next f _ =>
      split
      · exact acceptFrame_queueLaw false f (endReceived_stateLaw _ rd hs) (endReceived_queueLaw _ rd h)
          (fun _ => (endReceived_atRest _ rd hrest).attempt) fun howned => by cases howned
      · exact h
    next => exact endReceived_queueLaw _ rd h
  next => exact h

/-! ### The host's commands -/

theorem takeTransaction_queueLaw {bytes : List Byte} {act : State → Answer}
    (hact : ∀ w : State, w.StateLaw → w.QueueLaw → (act w).1.QueueLaw) (hs : s.StateLaw) (h : s.QueueLaw) :
    (takeTransaction bytes act s).QueueLaw := by
  unfold takeTransaction
  split
  · have hport : (s.withHp (bytes.foldl receiveByte s.hp)).QueueLaw := h.of_eq rfl rfl rfl
    have hstate : (s.withHp (bytes.foldl receiveByte s.hp)).StateLaw := hs.of_eq rfl rfl rfl rfl rfl
    exact (hact _ hstate hport).of_eq rfl rfl rfl
  · exact h

theorem onLock_queueLaw {act : Lock → State → Answer} (lock : Byte)
    (hact : s.sc.state = .member → ∀ l, (act l s).1.QueueLaw) (h : s.QueueLaw) : (onLock lock act s).1.QueueLaw := by
  unfold onLock
  (repeat' split) <;> try exact h
  next hm _ => exact hact (Decidable.not_not.mp hm) _

theorem answerClaim_queueLaw (lock mode limit : Byte) (h : s.QueueLaw) : (answerClaim lock mode limit s).1.QueueLaw := by
  unfold answerClaim
  split
  · exact h
  · refine onLock_queueLaw lock (fun hm l => ?_) h
    unfold claimLock
    (repeat' split) <;> try exact h
    next habove _ => exact placeClaim_queueLaw _ _ _ (by simp [hm, present]) (by simpa using habove) h

theorem yieldLock_queueLaw (hm : s.sc.state = .member) (l : Lock) (h : s.QueueLaw) : (yieldLock l s).1.QueueLaw := by
  unfold yieldLock
  (repeat' split) <;> try exact h
  next hr hheld => exact yieldRecord_queueLaw _ hm hr hheld h

theorem withdrawLock_queueLaw (hm : s.sc.state = .member) (l : Lock) (h : s.QueueLaw) : (withdrawLock l s).1.QueueLaw := by
  unfold withdrawLock
  (repeat' split) <;> try exact h
  next hr _ => exact withdrawRecord_queueLaw (by simp [hm, present]) hr h

theorem renewLock_queueLaw (hm : s.sc.state = .member) (l : Lock) (h : s.QueueLaw) : (renewLock l s).1.QueueLaw := by
  unfold renewLock
  (repeat' split) <;> try exact h
  all_goals
    rename_i r hr hheld _
    have hslot := (recordFor_some.mp hr).1
    have hsettled := h.settled hslot (by simp [hheld])
    exact h.replaced (by simp [hm, present]) hslot rfl rfl (List.Sublist.refl _) (fun e _ _ hfit => hfit)
      (State.mayDefer_of_none hsettled)

/-- Off the bus the station state changes with discarded entries alone in the queue (R75, R76). -/
theorem offBus_queueLaw (hs : s.StateLaw) (h : s.QueueLaw) (hstate : s.sc.state = .unconfigured ∨ s.sc.state = .ready)
    (hv : voting t.sc.state = false) (hrt : t.rt = s.rt) (hoq : t.oq = s.oq) : t.QueueLaw := by
  have hp : present s.sc.state = false := by rcases hstate with hstate | hstate <;> simp [hstate, present]
  have hd : s.onlyDiscards := by
    rcases hstate with hstate | hstate <;>
      exact h.onlyDiscards_of_state hp (by simp [hstate]) (by simp [hstate]) (by simp [hstate])
  exact .of_discards (h.apart.sublist (by rw [hoq])) (by unfold State.onlyDiscards; rwa [hoq]) hv (hrt.trans (hs.presence hp).2)

theorem answerConfigure_queueLaw (record : Vector Byte 20) (hs : s.StateLaw) (h : s.QueueLaw) :
    (answerConfigure record s).1.QueueLaw := by
  unfold answerConfigure
  (repeat' split) <;> try exact h
  next hstate _ _ _ => exact offBus_queueLaw hs h (.inl hstate) rfl rfl rfl

theorem answerJoin_queueLaw (hs : s.StateLaw) (h : s.QueueLaw) : (answerJoin s).1.QueueLaw := by
  unfold answerJoin
  split
  next hstate => exact offBus_queueLaw hs h (.inr hstate) rfl rfl rfl
  next => exact h

/-- A record at LEAVE keeps what its CONTENDING entry needs (R102, R123). -/
theorem leaveHolds_fits {x : HoldRecord} (hlock : x.lock = r.lock) (hgeneration : x.generation = r.generation)
    (hstate : x.state = r.state)
    (hasked : x.withdrawAsked = (r.withdrawAsked && (slotContends .withdraw i s || slotContends .claim i s)))
    (he : e ∈ s.oq.entries) (hc : e.contending = true) (ho : ownerOf e.content = .slot i) (hfit : r.fits e = true) :
    x.fits e = true := by
  have hmark (hcontent : e.content = .withdraw r.lock) : slotContends .withdraw i s = true :=
    slotContends_iff.mpr ⟨e, he, hc, ho, by rw [hcontent]; rfl⟩
  cases hr : r.state with
  | claiming => rwa [fits_claiming (hstate.trans hr), hlock, ← fits_claiming hr]
  | claimCancel => rwa [fits_claimCancel (hstate.trans hr), hlock, ← fits_claimCancel hr]
  | waiting => rw [fits_waiting hr] at hfit; cases hfit
  | withdrawing => rwa [fits_withdrawing (hstate.trans hr), hlock, ← fits_withdrawing hr]
  | held =>
    obtain ⟨hcontent, hmarked, -⟩ := (fits_held hr).mp hfit
    exact (fits_held (hstate.trans hr)).mpr ⟨by rw [hcontent, hlock], by simp [hasked, hmarked, hmark hcontent], hc⟩
  | yielding =>
    rw [fits_yielding (hstate.trans hr), hlock, hgeneration, hasked]
    rcases (fits_yielding hr).mp hfit with ⟨hcontent, hmarked, -⟩ | ⟨why, hcontent, hmarked⟩
    · exact .inl ⟨hcontent, by simp [hmarked, hmark hcontent], hc⟩
    · exact .inr ⟨why, hcontent, by simp [hmarked]⟩

/-- LEAVE keeps the request frame under way, with its record, and the station entries; the joining place is free for the DEPART (R92, R123,
R154). -/
theorem leaveBus_queueLaw (hm : s.sc.state = .member) (h : s.QueueLaw) : (leaveBus s).QueueLaw := by
  obtain ⟨hsc, -, -, -, -, -, -, -, hrt, hentries⟩ := leaveBus_departs hm
  have hp : present s.sc.state = true := by simp [hm, present]
  have hdeparting : (leaveBus s).sc.state = .departing := by rw [hsc]; rfl
  have hkept : (s.withEntries (s.oq.entries.filter fun e => e.contending || !isRequest e.content)).OwnersApart :=
    h.apart.sublist List.filter_sublist
  have hfree : hasEntry .joining (s.withEntries (s.oq.entries.filter fun e => e.contending || !isRequest e.content)) = false := by
    rw [hasEntry_false]
    intro e he ho
    have he : e ∈ s.oq.entries := (List.mem_filter.mp he).1
    have hd : e.discard = false := by
      by_contra hd
      have hv := (h.discarded he (by simpa using hd)).2
      simp [hm, voting] at hv
    have hlaw := entryLawful_joining hd ho (h.entry e he)
    simp [hm] at hlaw
  refine ⟨hkept.placed (c := .depart) hfree hentries, fun e he => ?_, fun i r hr => State.mayDefer_of_none ?_⟩
  · rw [hentries, List.mem_append, List.mem_filter, List.mem_singleton] at he
    rcases he with ⟨he, hstays⟩ | rfl
    · have hd : e.discard = false := by
        by_contra hd
        have hv := (h.discarded he (by simpa using hd)).2
        simp [hm, voting] at hv
      have hlaw := h.entry e he
      cases ho : ownerOf e.content with
      | slot i =>
        have hc : e.contending = true := by simpa [isRequest_of_slot ho] using hstays
        obtain ⟨-, r, hr, hfit⟩ := h.slotEntry hp he ho
        rw [entryLawful_slot hd ho, hdeparting, hrt, leaveHolds_slot]
        have hslot : (stopAllGuards s).rt.slots[i] = some r := hr
        rw [hslot, Option.map_some, Option.any_some]
        exact Bool.and_eq_true_iff.mpr ⟨rfl, leaveHolds_fits (s := stopAllGuards s) (r := r) rfl rfl rfl rfl he hc ho hfit⟩
      | joining => exact absurd ho ((hasEntry_false _).mp hfree e (List.mem_filter.mpr ⟨he, hstays⟩))
      | _ => simp [State.entryLawful, hd, ho, hdeparting, present]
    · simp [State.entryLawful, newEntry, ownerOf, hdeparting]
  · rw [hrt, leaveHolds_slot] at hr
    obtain ⟨x, -, rfl⟩ := Option.map_eq_some_iff.mp hr
    rfl

theorem answerLeave_queueLaw (h : s.QueueLaw) : (answerLeave s).1.QueueLaw := by
  unfold answerLeave
  (repeat' split) <;> try exact h
  next hm => exact leaveBus_queueLaw hm h
  next =>
    exact enterState_queueLaw (s := purgeAll s) (x := .ready) rfl (purgeAll_apart h.apart) (.inr (purgeAll_entries s))

theorem softReset_queueLaw (s : State) : (softReset s).QueueLaw := .of_nil (by simp [softReset]) (by simp [softReset])

/-! ### The timers -/

theorem contactDue_queueLaw (hp : present s.sc.state = true) (h : s.QueueLaw) : (contactDue s).QueueLaw := by
  unfold contactDue
  dsimp only
  split
  · exact h.of_eq rfl rfl rfl
  next hnone =>
    refine State.QueueLaw.placed ?_ .beacon ?_ ?_
    · exact h.of_eq rfl rfl rfl
    · simpa [hasEntry, ownerOf] using hnone
    · simpa [State.entryLawful, newEntry, ownerOf] using hp

/-- A promotion changes the class alone (R56). -/
theorem promoteBeacon_queueLaw (h : s.QueueLaw) : (promoteBeacon s).QueueLaw := by
  have hpromoted (e : Entry) : (promoteEntry e).content = e.content ∧ s.entryLawful (promoteEntry e) = s.entryLawful e := by
    unfold promoteEntry
    split <;> exact ⟨rfl, rfl⟩
  refine h.of_contents rfl rfl ?_ fun e he => ?_
  · simp [promoteBeacon, Function.comp_def, hpromoted]
  · simp only [promoteBeacon, State.withEntries_oq, List.mem_map] at he
    obtain ⟨x, hx, rfl⟩ := he
    rw [(hpromoted x).2]
    exact h.entry x hx

theorem foundingWait_queueLaw (hstate : s.sc.state = .listen) (hfree : hasEntry .joining s = false) (h : s.QueueLaw) :
    (placeEntry .found (enterState .founding s)).QueueLaw := by
  have hd := h.onlyDiscards_of_state (by simp [hstate, present]) (by simp [hstate]) (by simp [hstate]) (by simp [hstate])
  refine (enterState_queueLaw rfl h.apart (.inr hd)).placed .found ?_ ?_
  · rw [← hfree]
    exact hasEntry_congr (by simp [enterState_oq, hstate, voting])
  · simp [State.entryLawful, newEntry, ownerOf, enterState_sc, StationController.inState]

theorem execRoundTimeout_queueLaw (h : s.QueueLaw) (hexec : execRoundTimeout s = .next t) : t.QueueLaw := by
  unfold execRoundTimeout at hexec
  cases hexec
  split
  case h_3 => exact h
  all_goals
    rename_i hstate
    exact roundOut_queueLaw (by simp [hstate, present]) (by simp [hstate]) (by simp [hstate]) (by simp [hstate]) h

theorem execHoldExpiry_queueLaw (hholds : s.HoldsLaw) (h : s.QueueLaw) (hexec : execHoldExpiry i s = .next t) :
    t.QueueLaw := by
  unfold execHoldExpiry at hexec
  cases hexec
  (repeat' split) <;> try exact h
  next r hr hdue =>
    obtain ⟨hm, hheld, -⟩ := hdue
    have hrecord : recordFor s r.lock = some r := recordFor_some.mpr ⟨(hholds i r hr).1 ▸ hr, rfl⟩
    exact (yieldRecord_queueLaw .expired hm hrecord hheld h).of_eq (by simp [expireHold]) (by simp [expireHold])
      (by simp [expireHold])

theorem execAbsenceLimit_queueLaw {m : Station} (h : s.QueueLaw) (hexec : execAbsenceLimit m s = .next t) : t.QueueLaw := by
  unfold execAbsenceLimit at hexec
  cases hexec
  split
  · exact (decideEviction_tends _).queueLaw (h.of_eq rfl rfl rfl)
  · exact h

/-- A millisecond moves timers alone. -/
theorem tick_queueLaw (h : s.QueueLaw) : (tick s).QueueLaw := by
  have hslot (i : Tier) : (tick s).rt.slots[i] =
      s.rt.slots[i].map fun r => { r with holdTimer := r.holdTimer.map (· + 1) } := by
    simp [tick]
  refine ⟨h.apart, fun e he => ?_, fun i r hr => ?_⟩
  · have hsame : (tick s).entryLawful e = s.entryLawful e := by
      cases hd : e.discard with
      | true => rw [entryLawful_discarded hd, entryLawful_discarded hd]; rfl
      | false =>
        cases ho : ownerOf e.content with
        | slot i =>
          rw [entryLawful_slot hd ho, entryLawful_slot hd ho, hslot, Option.any_map]
          rfl
        | _ => exact entryLawful_congr rfl rfl fun i hi => by rw [ho] at hi; cases hi
    rw [hsame]
    exact h.entry e he
  · rw [hslot] at hr
    obtain ⟨x, hx, rfl⟩ := Option.map_eq_some_iff.mp hr
    exact h.deferred i x hx

theorem passTime_queueLaw (h : s.QueueLaw) : (passTime s).QueueLaw := by
  unfold passTime
  split
  · exact h
  · exact (tick_queueLaw h).of_eq rfl rfl rfl

/-! ### Every command -/

theorem exec_queueLaw {i : Instr} (hatt : s.AtRest ∨ ∃ f c, s.Attempting f c) (hs : s.StateLaw) (hholds : s.HoldsLaw)
    (h : s.QueueLaw) (hexec : exec i s = .next t) : t.QueueLaw := by
  have hone : s.attempt.length ≤ 1 := by
    rcases hatt with hrest | ⟨f, c, hatt⟩
    · simp [hrest.attempt]
    · simp [hatt.attempt]
  cases i with
  | hardReset => cases hexec; exact .of_nil rfl rfl
  | configureCommand record => cases hexec; exact takeTransaction_queueLaw (fun _ => answerConfigure_queueLaw record) hs h
  | joinCommand => cases hexec; exact takeTransaction_queueLaw (fun _ => answerJoin_queueLaw) hs h
  | leaveCommand => cases hexec; exact takeTransaction_queueLaw (fun _ _ => answerLeave_queueLaw) hs h
  | resetCommand => cases hexec; exact takeTransaction_queueLaw (fun w _ _ => softReset_queueLaw w) hs h
  | claimCommand lock mode limit =>
    cases hexec; exact takeTransaction_queueLaw (fun _ _ => answerClaim_queueLaw lock mode limit) hs h
  | yieldCommand lock =>
    cases hexec
    exact takeTransaction_queueLaw (fun _ _ hw => onLock_queueLaw lock (fun hm l => yieldLock_queueLaw hm l hw) hw) hs h
  | withdrawCommand lock =>
    cases hexec
    exact takeTransaction_queueLaw (fun _ _ hw => onLock_queueLaw lock (fun hm l => withdrawLock_queueLaw hm l hw) hw) hs h
  | renewCommand lock =>
    cases hexec
    exact takeTransaction_queueLaw (fun _ _ hw => onLock_queueLaw lock (fun hm l => renewLock_queueLaw hm l hw) hw) hs h
  | readLockCommand lock =>
    cases hexec
    refine takeTransaction_queueLaw (fun w _ hw => ?_) hs h
    unfold answerReadLock
    split <;> exact hw
  | readRosterCommand => cases hexec; exact takeTransaction_queueLaw (fun _ _ hw => hw) hs h
  | readHoldsCommand => cases hexec; exact takeTransaction_queueLaw (fun _ _ hw => hw) hs h
  | readNoticeCommand =>
    cases hexec
    refine takeTransaction_queueLaw (fun w _ hw => ?_) hs h
    unfold answerReadNotice
    split <;> exact hw
  | readStatusCommand => cases hexec; exact takeTransaction_queueLaw (fun _ _ hw => hw.of_eq rfl rfl rfl) hs h
  | unknownCommand code =>
    cases hexec
    split
    · exact takeTransaction_queueLaw (fun _ _ hw => hw) hs h
    · exact h
  | busOpportunity =>
    cases hexec
    split
    · exact selectEntry_queueLaw ((revalidate_tends s).queueLaw h)
    · exact h
  | startBitConfirmed =>
    cases hexec
    split
    · exact startFrame_queueLaw h
    · exact h
  | unconfirmedStartBit =>
    cases hexec
    split
    · refine reportMute_queueLaw _ (returnAttempt_queueLaw true ?_ (h.of_eq (by simp) (by simp) (by simp)))
      rwa [State.attempt_of_oq (s := s) (by simp)]
    · exact h
  | arbitrationLost =>
    cases hexec
    split
    · exact returnAttempt_queueLaw false hone (h.of_eq rfl rfl rfl)
    · exact h
  | frameLost cells =>
    cases hexec
    (repeat' split) <;> try exact h
    exact reportMute_queueLaw _ (h.of_eq (by simp) (by simp) (by simp))
  | frameVoided rd =>
    cases hexec
    (repeat' split) <;> try exact h
    · exact voidOwn_queueLaw _ rd hone h
    · exact endReceived_queueLaw _ rd h
  | claimFrame rd => cases hexec; exact acceptedFrame_queueLaw _ rd hatt hs h
  | yieldFrame rd => cases hexec; exact acceptedFrame_queueLaw _ rd hatt hs h
  | withdrawFrame rd => cases hexec; exact acceptedFrame_queueLaw _ rd hatt hs h
  | evictFrame rd => cases hexec; exact acceptedFrame_queueLaw _ rd hatt hs h
  | departFrame rd => cases hexec; exact acceptedFrame_queueLaw _ rd hatt hs h
  | beaconFrame rd => cases hexec; exact acceptedFrame_queueLaw _ rd hatt hs h
  | syncAskFrame rd => cases hexec; exact acceptedFrame_queueLaw _ rd hatt hs h
  | pageFrame rd => cases hexec; exact acceptedFrame_queueLaw _ rd hatt hs h
  | enrolFrame rd => cases hexec; exact acceptedFrame_queueLaw _ rd hatt hs h
  | foundFrame rd => cases hexec; exact acceptedFrame_queueLaw _ rd hatt hs h
  | ownContactReachesP =>
    cases hexec
    split
    next hp => exact contactDue_queueLaw hp h
    next => exact h
  | beaconPromoted =>
    cases hexec
    split
    · exact promoteBeacon_queueLaw h
    · exact h
  | fenceLimit =>
    cases hexec
    split
    · exact h.of_eq (by simp) (by simp) (by simp)
    · exact h
  | absenceLimit m => exact execAbsenceLimit_queueLaw h hexec
  | stranding =>
    cases hexec
    split
    · exact drop_queueLaw _ h
    · exact h
  | foundingWait =>
    cases hexec
    split
    next hdue => exact foundingWait_queueLaw hdue.1 hdue.2 h
    next => exact h
  | roundTimeout => exact execRoundTimeout_queueLaw h hexec
  | holdExpiry i => exact execHoldExpiry_queueLaw hholds h hexec
  | stableLevelChange p =>
    cases hexec
    split
    · exact evaluatePin_queueLaw p (h.of_eq rfl rfl rfl)
    · exact h
  | _ => cases hexec; (repeat' split) <;> exact h.of_eq rfl rfl rfl

/-- Settles O57: every command and the clock keep the law, its premises from the laws of the attempt, of the station states and of the hold
list. -/
theorem queueLawKept : Obligations.QueueLawKept := by
  intro s t hatt hs hholds h hstep
  rw [attemptLawful_iff] at hatt
  rw [State.stateLawful_iff] at hs
  rw [State.holdsLawful_iff] at hholds
  rw [State.queueLawful_iff] at h ⊢
  rcases step_cases hstep with ⟨c, n, q, hexec⟩ | rfl
  · refine exec_queueLaw (s := { s with choices := n, pending := q }) ?_ (hs.of_eq rfl rfl rfl rfl rfl) hholds
      (h.of_eq rfl rfl rfl) hexec
    rcases hatt with ⟨hline, hsending, hattempt⟩ | ⟨f, d, hline, hsending, hattempt, hactive, hframe⟩
    · exact .inl ⟨hline, hsending, hattempt⟩
    · obtain ⟨hsender, hkind, hflags, hpayload, hseq⟩ := hframe
      exact .inr ⟨f, d, hline, hsending, hattempt, hactive, hsender, hkind, hflags,
        fun hr => (hpayload hr).trans (payloadOf_request hr _ _), hseq⟩
  · exact passTime_queueLaw h

end Sys2Proof.Machine
end

section
/-! PROOFS. The frame on the line: a frame lost at its length cell (R169, R170, R176), and the cells of a frame read back (R161, R162,
R168, R170, R202, R205). -/

namespace Sys2Proof.Machine

/-! ### A lost frame -/

theorem countFault_nonvoting {s : State} (m : Option Station) (h : voting s.sc.state = false) : countFault m s = s := by
  simp [countFault, h]

/-- A counted fault leaves the receive registers as the frame left them. -/
theorem countFault_registers (m : Option Station) (s : State) :
    (countFault m s).lc.recessive = s.lc.recessive ∧ (countFault m s).lc.cells = s.lc.cells ∧
    (countFault m s).lc.crc = s.lc.crc := by
  unfold countFault
  cases voting s.sc.state
  · exact ⟨rfl, rfl, rfl⟩
  · cases m <;> exact ⟨rfl, rfl, rfl⟩

/-- The CRC covers the three cells up to the length cell, whatever length that cell says. -/
theorem coveredBytes_three (arb kind length : Cell) :
    coveredBytes [arb, kind, length] = [arb.data, kind.data, length.data] := by
  rw [coveredBytes]
  exact List.take_of_length_le (Nat.le_add_right_of_le (by simp))

theorem faultSender_known {arb : Cell} (h : turnHolds arb = true) : faultSender arb = some (Fin.ofNat 32 arb.data.toNat) :=
  if_pos h

theorem faultSender_unknown {arb : Cell} (h : turnHolds arb = false) : faultSender arb = none := by
  simp [faultSender, h]

/-- A receive fault below the mute condition is reported to no other block (R176, R177). -/
theorem countFault_unmuted {m : Option Station} {s : State} (h : voting s.sc.state = true → ¬ (countFault m s).lc.mute) :
    reportMute (mutes (countFault m s)) (countFault m s) = s.withLc (countFault m s).lc := by
  have hquiet : mutes (countFault m s) = false := mutes_false fun hv => h (by simpa using hv)
  obtain ⟨hall, -⟩ := countFault_faulted m s
  rw [reportMute, hquiet, if_neg (by simp)]
  exact hall

/-- The line at the loss of a frame, before its fault is counted (R169, R170). -/
def LineController.lost (x : LineController) (arb kind length : Cell) : LineController :=
  { x with state := .seeking, recessive := 0, cells := [arb, kind, length], crc := crcOf [arb.data, kind.data, length.data] }

theorem keepRead_lost (s : State) (arb kind length : Cell) :
    keepRead [arb, kind, length] (s.withLc { s.lc with state := .seeking, recessive := 0 })
      = s.withLc (s.lc.lost arb kind length) := by
  rw [keepRead, coveredBytes_three]
  rfl

/-- Settles O21: the loss is the line in SEEKING with the cells kept and one counted fault; without the mute nothing else follows. -/
theorem frameLostCountsFault : Obligations.FrameLostCountsFault := by
  intro s arb kind length hin hline hlost
  obtain ⟨-, hstate, hsending, htx, hcollisions, hfaulted, -⟩ :=
    countFault_faulted (faultSender arb) (s.withLc (s.lc.lost arb kind length))
  obtain ⟨hrecessive, hcells, hcrc⟩ := countFault_registers (faultSender arb) (s.withLc (s.lc.lost arb kind length))
  refine ⟨(countFault (faultSender arb) (s.withLc (s.lc.lost arb kind length))).lc, fun hmute => ?_, hstate, hsending,
    hcollisions, htx, hrecessive, hcells, hcrc, fun hv => ?_, fun hv => ⟨fun hturn => ?_, fun hturn => ?_⟩⟩
  · rw [exec_frameLost hin hline hlost, keepRead_lost, countFault_unmuted hmute]
    rfl
  · rw [countFault_nonvoting (s := s.withLc (s.lc.lost arb kind length)) _ hv]
    exact ⟨rfl, rfl, rfl⟩
  · rw [← faultSender_known hturn]
    exact hfaulted hv
  · rw [← faultSender_unknown hturn]
    exact hfaulted hv

/-! ### Cells and the fields of a frame -/

@[simp] theorem cellOf_data (b : Byte) : (cellOf b).data = b := rfl

@[simp] theorem turnHolds_cellOf (b : Byte) : turnHolds (cellOf b) = true := by
  simp [turnHolds, cellOf]

theorem map_data_cellOf (l : List Byte) : (l.map cellOf).map (·.data) = l := by
  rw [List.map_map]
  exact List.map_id l

/-- The kind codes are read back, and no code needs more than its 4 bits (R202). -/
theorem kindOfCode_kindCode (k : Kind) : kindOfCode (kindCode k) = some k ∧ kindCode k < 16 := by
  cases k <;> decide

/-- The arbitration byte: the class above the 5 bits of the sender (R201). -/
theorem arbByte_fields (c : ArbClass) (t : Station) :
    (Fin.ofNat 8 ((BitVec.ofNat 8 (c.val * 32 + t.val) : Byte).toNat / 32) : ArbClass) = c ∧
    (Fin.ofNat 32 (BitVec.ofNat 8 (c.val * 32 + t.val) : Byte).toNat : Station) = t := by
  have hc := c.isLt
  have ht := t.isLt
  rw [countByte_toNat (by omega)]
  constructor <;> apply Fin.ext <;> simp only [Fin.val_ofNat] <;> omega

/-- The kind byte: the kind code above the 4 flags (R202). -/
theorem kindByte_fields (k : Kind) (flags : BitVec 4) :
    kindOfCode ((BitVec.ofNat 8 (kindCode k * 16 + flags.toNat) : Byte).toNat / 16) = some k ∧
    BitVec.ofNat 4 (BitVec.ofNat 8 (kindCode k * 16 + flags.toNat) : Byte).toNat = flags := by
  obtain ⟨hread, hcode⟩ := kindOfCode_kindCode k
  have hflags := flags.isLt
  rw [countByte_toNat (by omega)]
  constructor
  · rw [show (kindCode k * 16 + flags.toNat) / 16 = kindCode k by omega, hread]
  · apply BitVec.eq_of_toNat_eq
    rw [BitVec.toNat_ofNat]
    omega

theorem busSeqBytes_append (q : BusSeq) :
    ((q.extractLsb' 16 8 ++ q.extractLsb' 8 8 ++ q.extractLsb' 0 8 : BitVec 24)) = q := by
  rw [BitVec.extractLsb'_append_extractLsb'_eq_extractLsb' (start₁ := 8) (start₂ := 16) rfl,
    BitVec.extractLsb'_append_extractLsb'_eq_extractLsb' (start₁ := 0) (start₂ := 8) rfl]
  exact BitVec.extractLsb'_eq_self

/-- No payload is longer than that of a lock page (R168, R204). -/
theorem lengthMatches_le {k : Kind} {p : List Byte} (h : lengthMatches k p = true) : p.length ≤ 50 := by
  cases k
  case page =>
    unfold lengthMatches at h
    dsimp only at h
    split at h
    · split at h
      · obtain ⟨hm, hr, hk, hlength⟩ := (pageZeroSized_iff _).mp h
        omega
      · simp only [Bool.and_eq_true, beq_iff_eq] at h
        omega
    · cases h
  all_goals
    have hlength := beq_iff_eq.mp h
    omega

/-! ### The frame read back -/

/-- The cells of a frame: the three by which a receiver places the rest, then the bus sequence, the payload and the CRC (R162). -/
theorem frameCells_eq (f : Frame) : frameCells f =
    cellOf (BitVec.ofNat 8 (f.cls.val * 32 + f.sender.val)) :: cellOf (BitVec.ofNat 8 (kindCode f.kind * 16 + f.flags.toNat)) ::
      cellOf (BitVec.ofNat 8 f.payload.length) ::
      (busSeqBytes f.busSeq ++ (f.payload ++ generationBytes (crcOf (frameBytes f)))).map cellOf := by
  simp [frameCells, frameBytes]

/-- The receiver checks pass on cells formed of a kind byte that names a kind, a length byte that counts the payload, a payload of that
kind's size, and the CRC of them all (R168, R170); the fields are those of the bytes. -/
theorem receiveCells_sent {a b n : Byte} {k : Kind} {p : List Byte} (q : BusSeq) (hkind : kindOfCode (b.toNat / 16) = some k)
    (hlength : n.toNat = p.length) (hsized : lengthMatches k p = true) :
    receiveCells (cellOf a) (cellOf b) (cellOf n)
      ((busSeqBytes q ++ (p ++ generationBytes (crcOf ([a, b, n] ++ busSeqBytes q ++ p)))).map cellOf) true =
    .clean { cls := Fin.ofNat 8 (a.toNat / 32), sender := Fin.ofNat 32 a.toNat, kind := k, flags := BitVec.ofNat 4 b.toNat,
             busSeq := q, payload := p } := by
  have hcrc : ∀ r : BitVec 16, (generationBytes r).length = 2 := fun _ => rfl
  simp only [receiveCells, map_data_cellOf, cellOf_data, hkind, hlength, busSeqBytes, List.cons_append, List.nil_append,
    List.take_left, List.drop_left, busSeqBytes_append]
  rw [if_pos]
  simp [hsized, hcrc]

/-- Settles O24: the length cell lets the receiver go on, its checks pass, and each field is read off its byte. -/
theorem frameReadsBack : Obligations.FrameReadsBack := by
  intro f hsized
  have hshort := lengthMatches_le hsized
  have hlength : (BitVec.ofNat 8 f.payload.length : Byte).toNat = f.payload.length := countByte_toNat (by omega)
  have hholds : lengthHolds (cellOf (BitVec.ofNat 8 f.payload.length)) = true := by
    simp [lengthHolds, hlength, hshort, -BitVec.toNat_ofNat]
  obtain ⟨hcls, hsender⟩ := arbByte_fields f.cls f.sender
  obtain ⟨hkind, hflags⟩ := kindByte_fields f.kind f.flags
  rw [receive, readingOf, frameCells_eq]
  dsimp only
  rw [if_pos hholds, frameBytes, receiveCells_sent f.busSeq hkind hlength hsized, hcls, hsender, hflags]

end Sys2Proof.Machine
end

section
/-! PROOFS. The bytes of the host port (R180 to R182, R185, R201, R206): the bits sampled on SDI gathered into the command that they come to,
the phases up to its take, and the bytes that SDO shifts out after it. -/

namespace Sys2Proof

/-! ### The bits sampled on SDI -/

/-- A byte shifted down takes in its next lower bit. -/
theorem gatherBit_shifted (b : Byte) (k : Nat) : gatherBit (b >>> (k + 1)) (b.getLsbD k) = b >>> k := by
  apply BitVec.eq_of_getLsbD_eq
  intro i hi
  have hlow : (if b.getLsbD k then (1 : Byte) else 0).getLsbD i = (b.getLsbD k && decide (i = 0)) := by
    split <;> simp_all
  rw [gatherBit, BitVec.getLsbD_or, hlow]
  cases i with
  | zero => simp
  | succ j =>
    have hj : k + 1 + j = k + (j + 1) := by omega
    simp [hi, hj]

/-- The eight bits of a byte, most significant first, gathered again (R180). -/
theorem gather_bitsOf (b : Byte) : (Machine.bitsOf b).foldl gatherBit 0 = b := by
  have hempty : (0 : Byte) = b >>> 8 := (BitVec.ushiftRight_eq_zero (Nat.le_refl 8)).symm
  simp only [Machine.bitsOf, List.foldl_cons, List.foldl_nil, hempty, gatherBit_shifted, BitVec.ushiftRight_zero]

theorem bytesOfBits_flatMap (l : List Byte) : bytesOfBits (l.flatMap Machine.bitsOf) = l := by
  induction l with
  | nil => rfl
  | cons b l ih => exact congrArg₂ List.cons (gather_bitsOf b) ih

end Sys2Proof

namespace Sys2Proof.Machine

/-! ### The command that bytes come to -/

theorem commandOfCode_codeOf (c : HostCommand) : commandOfCode (codeOf c) = some c := by
  cases c <;> rfl

/-- One row of the table of codes: its own code, or a row after it. -/
theorem code_of_row {c d : HostCommand} {code row : Byte} {rows : Option HostCommand} (hrow : row = codeOf d)
    (hrows : rows = some c → code = codeOf c) (h : (if code = row then some d else rows) = some c) : code = codeOf c := by
  split at h
  · cases h
    rwa [← hrow]
  · exact hrows h

theorem commandOfCode_eq_some (c : HostCommand) (code : Byte) : commandOfCode code = some c ↔ code = codeOf c := by
  constructor
  · unfold commandOfCode
    iterate 13 refine code_of_row rfl ?_
    intro hnone
    cases hnone
  · rintro rfl
    exact commandOfCode_codeOf c

/-- The bytes behind the arguments of a command are disregarded (R182). -/
theorem commandWith_append {c : HostCommand} {args : List Byte} (more : List Byte) (h : args.length = argumentBytes c) :
    commandWith c (args ++ more) = commandWith c args := by
  have harg : ∀ i < argumentBytes c, (args ++ more).getD i 0 = args.getD i 0 := fun i hi =>
    List.getD_append args more 0 i (by omega)
  cases c with
  | configure =>
    have hrecord : (fun i : Fin 20 => (args ++ more).getD i.val 0) = fun i => args.getD i.val 0 :=
      funext fun i => harg i.val i.isLt
    simp only [commandWith, hrecord]
  | claim => simp only [commandWith, harg 0 (by decide), harg 1 (by decide), harg 2 (by decide)]
  | yield => simp only [commandWith, harg 0 (by decide)]
  | withdraw => simp only [commandWith, harg 0 (by decide)]
  | renew => simp only [commandWith, harg 0 (by decide)]
  | readLock => simp only [commandWith, harg 0 (by decide)]
  | join | leave | reset | readRoster | readHolds | readNotice | readStatus => rfl

theorem commandOfBytes_whole {c : HostCommand} {args : List Byte} (more : List Byte) (h : args.length = argumentBytes c) :
    commandOfBytes (codeOf c :: args ++ more) = some (commandWith c args) := by
  rw [List.cons_append]
  simp only [commandOfBytes, commandOfCode_codeOf]
  rw [if_pos (by simp [h]), commandWith_append more h]

/-! ### The phases up to the take -/

/-- The port with a command's byte and some of its arguments received (R181). -/
def HostPort.receiving (p : HostPort) (c : HostCommand) (count : Nat) : HostPort :=
  { p with phase := if count < argumentBytes c then .arguments else .turnaround, bits := 8 * (1 + count), taken := some c }

theorem receiveByte_code {p : HostPort} (c : HostCommand) (h : p.phase = .command) :
    receiveByte p (codeOf c) = p.receiving c 0 := by
  cases c <;> simp [receiveByte, h, commandOfCode_codeOf, takeBytes, argumentBytes, HostPort.receiving]

theorem receiveByte_argument (p : HostPort) {c : HostCommand} {count : Nat} (b : Byte) (h : count < argumentBytes c) :
    receiveByte (p.receiving c count) b = p.receiving c (count + 1) := by
  have hphase : (p.receiving c count).phase = .arguments := if_pos h
  have htake : takeBytes (p.receiving c count) = 1 + argumentBytes c := rfl
  have hbits : (p.receiving c count).bits = 8 * (1 + count) := rfl
  simp only [receiveByte, hphase, htake, hbits]
  by_cases hmore : count + 1 < argumentBytes c
  · rw [if_neg (by omega), HostPort.receiving, HostPort.receiving, if_pos hmore]
    rfl
  · rw [if_pos (by omega), HostPort.receiving, HostPort.receiving, if_neg hmore]
    rfl

theorem receiveByte_foldl (p : HostPort) {c : HostCommand} (args : List Byte) {count : Nat}
    (h : count + args.length ≤ argumentBytes c) :
    args.foldl receiveByte (p.receiving c count) = p.receiving c (count + args.length) := by
  induction args generalizing count with
  | nil => rfl
  | cons b args ih =>
    rw [List.length_cons] at h
    rw [List.foldl_cons, receiveByte_argument p b (by omega), ih (by omega), List.length_cons, Nat.add_assoc, Nat.add_comm 1]

/-! ### What SDO shifts out -/

/-- The port some SCK cycles after the fall of SSn, counted from the take on: TURNAROUND for one byte, RESULT up to the last bit of the
result, then FILLER (R181). -/
def HostPort.clockedTo (p : HostPort) (n : Nat) : HostPort :=
  { p with bits := n,
           phase := if n < 8 * (takeBytes p + 1) then .turnaround else if n < resultEnd p then .result else .filler }

theorem clockBit_clockedTo {p : HostPort} (n : Nat) (h : resultBytes p ≠ []) :
    clockBit (p.clockedTo n) = p.clockedTo (n + 1) := by
  have hresult : 8 * (takeBytes p + 1) + 8 ≤ resultEnd p := by
    have := List.length_pos_iff.mpr h
    rw [resultEnd]
    omega
  have htake : ∀ m, takeBytes (p.clockedTo m) = takeBytes p := fun _ => rfl
  have hend : ∀ m, resultEnd (p.clockedTo m) = resultEnd p := fun _ => rfl
  by_cases hturn : n < 8 * (takeBytes p + 1)
  · have hphase : (p.clockedTo n).phase = .turnaround := if_pos hturn
    simp only [clockBit, hphase, htake]
    by_cases hmore : n + 1 < 8 * (takeBytes p + 1)
    · simp [HostPort.clockedTo, hmore, Nat.not_le.mpr hmore]
    · simp [HostPort.clockedTo, hmore, Nat.not_lt.mp hmore, show n + 1 < resultEnd p by omega]
  · have hpast : ¬ n + 1 < 8 * (takeBytes p + 1) := by omega
    by_cases hres : n < resultEnd p
    · have hphase : (p.clockedTo n).phase = .result := by simp only [HostPort.clockedTo, if_neg hturn, if_pos hres]
      simp only [clockBit, hphase, hend]
      by_cases hmore : n + 1 < resultEnd p
      · simp [HostPort.clockedTo, hpast, hmore, Nat.not_le.mpr hmore]
      · simp [HostPort.clockedTo, hpast, hmore, Nat.not_lt.mp hmore]
    · have hphase : (p.clockedTo n).phase = .filler := by simp only [HostPort.clockedTo, if_neg hturn, if_neg hres]
      simp only [clockBit, hphase]
      simp [HostPort.clockedTo, hpast, show ¬ n + 1 < resultEnd p by omega]

/-- The byte that SDO shifts out, by the whole bytes since the take: the filler byte of the turnaround, the result, and filler (R180, R185). -/
theorem sdoByte_clockedTo (p : HostPort) (j : Nat) {i : Nat} (hi : i < 8) :
    sdoByte (p.clockedTo (8 * (takeBytes p + j) + i)) = (fillerByte :: resultBytes p).getD j fillerByte := by
  have hturn : 8 * (takeBytes p + j) + i < 8 * (takeBytes p + 1) ↔ j = 0 := by omega
  have hres : 8 * (takeBytes p + j) + i < resultEnd p ↔ j < 1 + (resultBytes p).length := by rw [resultEnd]; omega
  cases j with
  | zero =>
    have hphase : (p.clockedTo (8 * (takeBytes p + 0) + i)).phase = .turnaround := if_pos (hturn.mpr rfl)
    simp only [sdoByte, hphase, List.getD_cons_zero]
  | succ j =>
    have hafter := mt hturn.mp (Nat.succ_ne_zero j)
    rw [List.getD_cons_succ]
    by_cases hin : j < (resultBytes p).length
    · have hphase : (p.clockedTo (8 * (takeBytes p + (j + 1)) + i)).phase = .result :=
        (if_neg hafter).trans (if_pos (hres.mpr (by omega)))
      have hplace : (8 * (takeBytes p + (j + 1)) + i) / 8 - takeBytes p - 1 = j := by omega
      simp only [sdoByte, hphase]
      exact congrArg ((resultBytes p).getD · fillerByte) hplace
    · have hphase : (p.clockedTo (8 * (takeBytes p + (j + 1)) + i)).phase = .filler :=
        (if_neg hafter).trans (if_neg (mt hres.mp (by omega)))
      simp only [sdoByte, hphase]
      exact (List.getD_eq_default _ _ (by omega)).symm

theorem sdoLevel_clockedTo (p : HostPort) (j : Nat) {i : Nat} (hi : i < 8) :
    sdoLevel (p.clockedTo (8 * (takeBytes p + j) + i))
      = some (((fillerByte :: resultBytes p).getD j fillerByte).getLsbD (7 - i)) := by
  have hbusy : (p.clockedTo (8 * (takeBytes p + j) + i)).phase ≠ .idle := by
    simp only [HostPort.clockedTo]
    split_ifs <;> simp
  have hbit : (8 * (takeBytes p + j) + i) % 8 = i := by omega
  rw [sdoLevel, if_neg hbusy, sdoByte_clockedTo p j hi]
  exact congrArg (fun k => some (BitVec.getLsbD _ (7 - k))) hbit

/-- The eight SCK cycles of a byte shift out its bits, most significant first (R180). -/
theorem shiftOut_byte {p : HostPort} (j n : Nat) (h : resultBytes p ≠ []) :
    shiftOut (n + 8) (p.clockedTo (8 * (takeBytes p + j)))
      = (bitsOf ((fillerByte :: resultBytes p).getD j fillerByte)).map some
          ++ shiftOut n (p.clockedTo (8 * (takeBytes p + (j + 1)))) := by
  have hlevel : ∀ i < 8, _ := fun i hi => sdoLevel_clockedTo p j hi
  have hnext : 8 * (takeBytes p + (j + 1)) = 8 * (takeBytes p + j) + 8 := rfl
  have hfirst := hlevel 0 (by decide)
  rw [Nat.add_zero] at hfirst
  simp only [shiftOut, clockBit_clockedTo _ h, Nat.add_assoc (8 * (takeBytes p + j)), Nat.reduceAdd, hnext, hfirst,
    hlevel 1 (by decide), hlevel 2 (by decide), hlevel 3 (by decide), hlevel 4 (by decide), hlevel 5 (by decide),
    hlevel 6 (by decide), hlevel 7 (by decide)]
  rfl

/-- Filler behind a list of bytes reads as what lies past its end. -/
theorem getD_append_filler (l : List Byte) (k i : Nat) :
    (l ++ List.replicate k 0x00).getD i fillerByte = l.getD i fillerByte := by
  by_cases hi : i < l.length
  · exact List.getD_append _ _ _ _ hi
  · rw [List.getD_append_right _ _ _ _ (Nat.le_of_not_lt hi), List.getD_eq_default l _ (Nat.le_of_not_lt hi)]
    by_cases hk : i - l.length < k
    · exact List.getD_replicate _ hk
    · exact List.getD_eq_default _ _ (by simpa using hk)

/-- The bytes from a place on are shifted out one after the other (R180, R181, R185). -/
theorem shiftOut_bytes {p : HostPort} (h : resultBytes p ≠ []) (l : List Byte) {j : Nat}
    (hl : ∀ i (hi : i < l.length), l[i] = (fillerByte :: resultBytes p).getD (j + i) fillerByte) :
    shiftOut (8 * l.length) (p.clockedTo (8 * (takeBytes p + j))) = (l.flatMap bitsOf).map some := by
  induction l generalizing j with
  | nil => rfl
  | cons b l ih =>
    have hfirst : b = (fillerByte :: resultBytes p).getD j fillerByte := hl 0 (by simp)
    have hrest := ih (j := j + 1) fun i hi => by
      rw [Nat.add_assoc, Nat.add_comm 1]
      exact hl (i + 1) (by simpa using hi)
    rw [List.length_cons, Nat.mul_add, Nat.mul_one, shiftOut_byte j _ h, hrest, ← hfirst, List.flatMap_cons, List.map_append]

/-- After the take of a command its result is shifted out behind a filler byte, and filler follows (R181, R185, R201). -/
theorem shiftOut_answered (p : HostPort) (c : HostCommand) (code : ResultCode) (data : List Byte) (k : Nat) :
    shiftOut (8 * (2 + data.length + k)) (p.answered c (1 + argumentBytes c) code data)
      = ((fillerByte :: resultByte code :: data ++ List.replicate k 0x00).flatMap bitsOf).map some := by
  have hresult : resultBytes (p.answered c (1 + argumentBytes c) code data) = resultByte code :: data := rfl
  have htake : takeBytes (p.answered c (1 + argumentBytes c) code data) = 1 + argumentBytes c := rfl
  have hstart : (p.answered c (1 + argumentBytes c) code data).clockedTo (8 * (1 + argumentBytes c + 0))
      = p.answered c (1 + argumentBytes c) code data := by
    rw [HostPort.clockedTo, htake, if_pos (by omega)]
    rfl
  have hbytes := shiftOut_bytes (p := p.answered c (1 + argumentBytes c) code data) (j := 0)
    (by rw [hresult]; exact List.cons_ne_nil _ _) (fillerByte :: resultByte code :: data ++ List.replicate k 0x00)
    fun i hi => by
      rw [hresult, Nat.zero_add, ← List.getD_eq_getElem _ fillerByte hi, getD_append_filler]
  rw [htake, hstart] at hbytes
  rw [← hbytes]
  congr 1
  simp
  omega

theorem sdoLevel_none_iff (p : HostPort) : sdoLevel p = none ↔ p.phase = .idle := by
  rw [sdoLevel]
  split <;> simp_all

/-- Before the take SDO is low (R180, R201). -/
theorem sdoLevel_before {p : HostPort} (h : p.phase = .command ∨ p.phase = .arguments) : sdoLevel p = some false := by
  obtain hphase | hphase := h <;> simp [sdoLevel, sdoByte, hphase, fillerByte]

/-- Settles O16: byte by byte, in and out. -/
theorem portBytes : Obligations.PortBytes := by
  refine ⟨bytesOfBits_flatMap, commandOfCode_eq_some, fun c args more hargs => ?_, fun p c args hphase hargs => ?_,
    shiftOut_answered, fun p => ⟨sdoLevel_none_iff p, sdoLevel_before⟩⟩
  · rw [commandOfBits, bytesOfBits_flatMap, commandOfBytes_whole more hargs]
  · rw [List.foldl_cons, receiveByte_code c hphase, receiveByte_foldl p args (by omega), Nat.zero_add]
    rfl

end Sys2Proof.Machine
end

section
/-! PROOFS. The read commands and the phases of a transaction (R181, R183 to R185, R191 to R195, R207, R208): what each read answers, the two
completions, and the marks that the result bytes carry. -/

namespace Sys2Proof.Machine

variable {s : State}

/-! ### The phases of a transaction -/

/-- A byte that is no command code is answered UNKNOWN (R184). -/
theorem exec_unknown {code : Byte} (hport : portOpen s = true) (hcode : commandOfCode code = none) :
    exec (.unknownCommand code) s
      = .next { s with hp := { s.hp with phase := .turnaround, bits := 8, taken := none, resultCode := some .unknown,
                                         resultData := [] } } := by
  have hphase : s.hp.phase = .command := by
    simp only [portOpen, Bool.and_eq_true, beq_iff_eq] at hport
    exact hport.2
  have hbyte : receiveByte s.hp code = { s.hp with phase := .turnaround, bits := 8, taken := none } := by
    simp [receiveByte, hphase, hcode, takeBytes]
  show Host.Outcome.next (if commandOfCode code = none then _ else s) = _
  rw [if_pos hcode, takeTransaction, if_pos hport, List.foldl_cons, hbyte]
  rfl

/-- Settles O15: each event of the port by the phase that it finds. -/
theorem transactionPhases : Obligations.TransactionPhases := by
  intro s
  refine ⟨fun hin hselected => ?_, fun code hport hcode => exec_unknown hport hcode, fun hphase => ?_, fun hphase => ?_⟩
  · show Host.Outcome.next (if s.hp.selected then s else if s.inReset then _ else _) = _
    rw [if_neg (by simp [hselected]), if_neg (by simp [hin])]
    rfl
  · exact congrArg Host.Outcome.next (if_neg hphase)
  · exact congrArg Host.Outcome.next (if_pos hphase)

/-! ### Reads without arguments -/

/-- A read whose block answers without a change of state is held at the port (R182). -/
theorem exec_read {c : HostCommand} {i : Instr} {act : State → Answer} {code : ResultCode} {data : List Byte}
    (hport : portOpen s = true) (hexec : exec i s = .next (takeCommand c [] act s)) (hargs : argumentBytes c = 0)
    (hact : act (s.commandReceived c) = (s.commandReceived c, code, data)) :
    exec i s = .next { s with hp := s.hp.answered c 1 code data } := by
  have htake : takeCommand c [] act s = holdResult (act (s.commandReceived c)) :=
    takeCommand_open act hport (commandOfCode_codeOf c) hargs
  rw [hexec, htake, hact]
  rfl

/-! ### Notices and the status -/

/-- Two marks in the lowest bits of a byte (R207). -/
theorem twoMarks (a b : Bool) :
    (markByte a ||| (markByte b <<< 1)).getLsbD 0 = a ∧ (markByte a ||| (markByte b <<< 1)).getLsbD 1 = b ∧
    (markByte a ||| (markByte b <<< 1)).toNat < 4 := by
  cases a <;> cases b <;> decide

/-- Three marks in the lowest bits of a byte (R193, R207). -/
theorem threeMarks (a b c : Bool) :
    (markByte a ||| (markByte b <<< 1) ||| (markByte c <<< 2)).getLsbD 0 = a ∧
    (markByte a ||| (markByte b <<< 1) ||| (markByte c <<< 2)).getLsbD 1 = b ∧
    (markByte a ||| (markByte b <<< 1) ||| (markByte c <<< 2)).getLsbD 2 = c ∧
    (markByte a ||| (markByte b <<< 1) ||| (markByte c <<< 2)).toNat < 8 := by
  cases a <;> cases b <;> cases c <;> decide

theorem exec_readNotice_empty (hport : portOpen s = true) (h : s.hp.notices = []) :
    exec .readNoticeCommand s = .next { s with hp := s.hp.answered .readNotice 1 .empty [] } := by
  refine exec_read hport rfl rfl ?_
  have hnone : (s.commandReceived .readNotice).hp.notices = [] := h
  rw [answerReadNotice, hnone]
  rfl

theorem exec_readNotice_oldest {x : Notice} {rest : List Notice} (hport : portOpen s = true) (h : s.hp.notices = x :: rest) :
    exec .readNoticeCommand s
      = .next { s with hp := s.hp.answered .readNotice 1 .ok (noticeBytes x ++ [countByte rest.length]) } := by
  refine exec_read hport rfl rfl ?_
  have hsome : (s.commandReceived .readNotice).hp.notices = x :: rest := h
  rw [answerReadNotice, hsome]

theorem completing_iff (c : HostCommand) (s : State) :
    completing c s = true ↔ (s.hp.phase = .turnaround ∨ s.hp.phase = .result) ∧ s.hp.taken = some c := by
  simp [completing]

/-- The port behind the last bit of a result of a command without arguments (R181). -/
theorem completed_eq {p : HostPort} {c : HostCommand} {code : ResultCode} (htaken : p.taken = some c) (hargs : argumentBytes c = 0)
    (hcode : p.resultCode = some code) : completed p = { p with phase := .filler, bits := 8 * (3 + p.resultData.length) } := by
  simp only [completed, resultEnd, takeBytes, resultBytes, htaken, hcode, Option.map_some, Option.getD_some, hargs,
    List.length_cons]
  congr 1
  omega

theorem exec_readNoticeCompletion {code : ResultCode} (hphase : s.hp.phase = .turnaround ∨ s.hp.phase = .result)
    (htaken : s.hp.taken = some .readNotice) (hcode : s.hp.resultCode = some code) :
    exec .readNoticeCompletion s
      = .next { s with hp := { s.hp with
          phase := .filler, bits := 8 * (3 + s.hp.resultData.length),
          notices := if code = .ok then s.hp.notices.tail else s.hp.notices } } := by
  show Host.Outcome.next (if completing .readNotice s then _ else s) = _
  have hnotices : (if s.hp.resultCode = some .ok then s.hp.notices.tail else s.hp.notices)
      = if code = .ok then s.hp.notices.tail else s.hp.notices := by simp only [hcode, Option.some.injEq]
  rw [if_pos ((completing_iff _ _).mpr ⟨hphase, htaken⟩), completed_eq htaken rfl hcode, hnotices]
  rfl

/-- READ_STATUS taken: the status as it stands, and the late-overflow mark cleared (R194). -/
theorem exec_readStatus (hport : portOpen s = true) :
    exec .readStatusCommand s
      = .next { s with hp := HostPort.answered { s.hp with lateOverflow := false } .readStatus 1 .ok (readStatusBytes s) } := by
  have htake : takeCommand .readStatus [] answerReadStatus s = holdResult (answerReadStatus (s.commandReceived .readStatus)) :=
    takeCommand_open answerReadStatus hport rfl rfl
  exact congrArg Host.Outcome.next htake

theorem exec_readStatusCompletion {code : ResultCode} {state fences flags : Byte} {more : List Byte}
    (hphase : s.hp.phase = .turnaround ∨ s.hp.phase = .result) (htaken : s.hp.taken = some .readStatus)
    (hcode : s.hp.resultCode = some code) (hdata : s.hp.resultData = state :: fences :: flags :: more) :
    exec .readStatusCompletion s
      = .next { s with hp := { s.hp with
          phase := .filler, bits := 8 * (6 + more.length),
          truncated := if flags.getLsbD 2 then false else s.hp.truncated,
          overflow := if flags.getLsbD 1 = true ∧ s.hp.lateOverflow = false then false else s.hp.overflow } } := by
  have hflags : reportedFlags s = flags := by rw [reportedFlags, hdata]; rfl
  have hlength : 3 + s.hp.resultData.length = 6 + more.length := by simp [hdata]; omega
  have htruncated : (s.hp.truncated && !flags.getLsbD 2) = if flags.getLsbD 2 then false else s.hp.truncated := by
    cases flags.getLsbD 2 <;> simp
  have hoverflow : (s.hp.overflow && !(flags.getLsbD 1 && !s.hp.lateOverflow))
      = if flags.getLsbD 1 = true ∧ s.hp.lateOverflow = false then false else s.hp.overflow := by
    cases flags.getLsbD 1 <;> cases s.hp.lateOverflow <;> simp
  show Host.Outcome.next (if completing .readStatus s then _ else s) = _
  rw [if_pos ((completing_iff _ _).mpr ⟨hphase, htaken⟩), completed_eq htaken rfl hcode, hflags, hlength, htruncated, hoverflow]
  rfl

/-- Settles O14: the reads answer what the port holds, and their completions act on the result held. -/
theorem noticeAndStatusReadTaken : Obligations.NoticeAndStatusReadTaken := by
  refine ⟨fun s hport => ⟨exec_readNotice_empty hport, fun x rest => exec_readNotice_oldest hport⟩,
    fun s hphase htaken => ⟨exec_readNoticeCompletion hphase htaken, exec_readNoticeCompletion hphase htaken⟩,
    fun s hport => ?_, fun s code state fences flags more => exec_readStatusCompletion⟩
  refine ⟨_, _, exec_readStatus hport, twoMarks _ _, threeMarks _ _ _⟩

/-! ### The table reads -/

theorem exec_readLock {lock : Byte} (hport : portOpen s = true) :
    exec (.readLockCommand lock) s = .next (holdResult (answerReadLock lock (s.received .readLock))) :=
  congrArg Host.Outcome.next (takeCommand_received _ hport rfl rfl (List.cons_ne_nil _ _))

/-- The standing of an entry: LIVE, UNCOLLECTED or NO_REPLICA (R191, R207). -/
theorem standingByte_cases (s : State) (l : Lock) :
    (standingByte s l = 0 ↔ s.sc.state = .enrolling ∨ present s.sc.state = true ∨
      s.sc.state = .collecting ∧ s.tc.uncollected[l] = false) ∧
    (standingByte s l = 1 ↔ s.sc.state = .collecting ∧ s.tc.uncollected[l] = true) ∧
    (standingByte s l = 2 ↔ voting s.sc.state = false) := by
  rw [standingByte]
  generalize s.tc.uncollected[l] = mark
  cases s.sc.state with
  | collecting => cases mark <;> decide
  | unconfigured | ready | listen | founding | asking | waitRound | enrolling | member | departing => simp [present, voting]

/-- A byte with one more mark. -/
theorem getLsbD_marked (mark : Bool) (b : Byte) (i j : Fin 8) :
    (if mark then b ||| BitVec.ofNat 8 (2 ^ j.val) else b).getLsbD i.val = (b.getLsbD i.val || mark && decide (i = j)) := by
  have hbit : (BitVec.ofNat 8 (2 ^ j.val)).getLsbD i.val = decide (i = j) := by
    rw [BitVec.getLsbD_ofNat, Nat.testBit_two_pow]
    simp [Fin.ext_iff, eq_comm]
  cases mark with
  | false => simp
  | true => rw [if_pos rfl, BitVec.getLsbD_or, hbit, Bool.true_and]

/-- The marks of some of eight stations, added to a byte. -/
theorem foldl_marks_getLsbD (f : Fin 8 → Bool) (l : List (Fin 8)) (b : Byte) (i : Fin 8) :
    (l.foldl (fun b j => if f j then b ||| BitVec.ofNat 8 (2 ^ j.val) else b) b).getLsbD i.val
      = (b.getLsbD i.val || decide (i ∈ l) && f i) := by
  induction l generalizing b with
  | nil => simp
  | cons j l ih =>
    rw [List.foldl_cons, ih, getLsbD_marked]
    by_cases hij : i = j
    · subst hij
      cases f i <;> simp
    · simp [hij]

/-- The member marks of eight stations, the lowest in bit 0 (R207). -/
theorem memberMarks_getLsbD (m : StationSet) (base : Nat) (i : Fin 8) :
    (memberMarks m base).getLsbD i.val = m[(Fin.ofNat 32 (base + i.val) : Station)] := by
  rw [memberMarks, foldl_marks_getLsbD (fun j => m[(Fin.ofNat 32 (base + j.val) : Station)])]
  simp

/-- The four bytes of member marks, those of the highest stations first (R207). -/
def rosterMarks (m : StationSet) : Vector Byte 4 := tabulate fun k => memberMarks m (8 * (3 - k.val))

theorem readRosterBytes_eq (s : State) : readRosterBytes s =
    [BitVec.ofNat 8 (countOf s.au.replica.roster)] ++ (rosterMarks s.au.replica.roster).toList
      ++ [if s.au.replica.transfer.running then 1 else 0, stationByte s.au.replica.transfer.feeder,
          s.au.replica.transfer.round, BitVec.ofNat 8 s.au.replica.transfer.nextPage]
      ++ [BitVec.ofNat 8 s.au.replica.transfer.roundList.length]
      ++ (s.au.replica.transfer.roundList.map stationByte ++ List.replicate 4 0xFF).take 4
      ++ [BitVec.ofNat 8 s.au.replica.transfer.pendingList.length]
      ++ (s.au.replica.transfer.pendingList.map stationByte ++ List.replicate 4 0xFF).take 4
      ++ busSeqBytes s.au.replica.busSeq := by
  have hmarks : (rosterMarks s.au.replica.roster).toList = [memberMarks s.au.replica.roster 24,
      memberMarks s.au.replica.roster 16, memberMarks s.au.replica.roster 8, memberMarks s.au.replica.roster 0] := rfl
  rw [hmarks]
  simp only [readRosterBytes, countByte, markByte, stationPositions, List.cons_append, List.nil_append, List.append_assoc]

theorem exec_readRoster (hport : portOpen s = true) :
    exec .readRosterCommand s = .next { s with hp := s.hp.answered .readRoster 1 .ok (readRosterBytes s) } :=
  exec_read hport rfl rfl rfl

/-- The records of the eight slots, in the order of their tiers; outside MEMBER and DEPARTING each is reported empty (R193, R207). -/
def slotRecords (s : State) : Vector (List Byte) 8 :=
  tabulate fun i => slotBytes (if present s.sc.state then s.rt.slots[i] else none)

theorem slotRecords_flatten (s : State) : (slotRecords s).toList.flatten = readHoldsBytes s := by
  rw [readHoldsBytes, List.flatMap, ← List.ofFn_eq_map]
  rfl

theorem exec_readHolds (hport : portOpen s = true) :
    exec .readHoldsCommand s = .next { s with hp := s.hp.answered .readHolds 1 .ok (slotRecords s).toList.flatten } := by
  rw [slotRecords_flatten]
  exact exec_read hport rfl rfl rfl

theorem slotRecords_empty {i : Tier} (h : present s.sc.state = false ∨ s.rt.slots[i] = none) :
    (slotRecords s)[i] = [0xFF, 0, 0, 0, 0, 0, 0, 0] := by
  rw [slotRecords, tabulate_get]
  obtain hstate | hslot := h
  · rw [if_neg (by simp [hstate])]
    rfl
  · rw [hslot, ite_self]
    rfl

theorem slotRecords_record {i : Tier} {r : HoldRecord} (hp : present s.sc.state = true) (hr : s.rt.slots[i] = some r) :
    (slotRecords s)[i] = slotBytes (some r) := by
  rw [slotRecords, tabulate_get, if_pos hp, hr]

/-- The time remaining is reported of a HELD record whose hold timer runs (R193). -/
theorem timeRemaining_isSome (r : HoldRecord) : (timeRemaining r).isSome = (r.state == .held && r.holdTimer.isSome) := by
  cases hs : r.state <;> cases ht : r.holdTimer <;> simp [timeRemaining, hs, ht]

theorem timeRemaining_held {r : HoldRecord} {a : Nat} (hs : r.state = .held) (ht : r.holdTimer = some a) :
    timeRemaining r = some (r.holdLimit.toNat - a / 10) := by
  simp only [timeRemaining, hs, ht]

theorem timeRemaining_none {r : HoldRecord} (h : r.state ≠ .held ∨ r.holdTimer = none) : timeRemaining r = none := by
  rw [← Option.not_isSome_iff_eq_none, timeRemaining_isSome]
  obtain hstate | htimer := h
  · simp [hstate]
  · simp [htimer]

/-- A record in its slot, with its marks and the time remaining (R127, R193, R207). -/
theorem slotBytes_record (r : HoldRecord) : ∃ marks left : Byte,
    slotBytes (some r) = [lockByte r.lock, originByte r.origin, recordStateByte r.state, r.holdLimit, marks]
      ++ generationBytes (r.generation.getD 0) ++ [left] ∧
    marks.getLsbD 0 = r.generation.isSome ∧ marks.getLsbD 1 = r.withdrawAsked ∧
    marks.getLsbD 2 = (r.state == .held && r.holdTimer.isSome) ∧
    (∀ a, r.state = .held → r.holdTimer = some a → left.toNat = r.holdLimit.toNat - a / 10) ∧
    ((r.state ≠ .held ∨ r.holdTimer = none) → left = 0) := by
  obtain ⟨hgeneration, hasked, hremaining, -⟩ := threeMarks r.generation.isSome r.withdrawAsked (timeRemaining r).isSome
  refine ⟨_, countByte ((timeRemaining r).getD 0), rfl, hgeneration, hasked, hremaining.trans (timeRemaining_isSome r),
    fun a hs ht => ?_, fun h => ?_⟩
  · have hlimit := r.holdLimit.isLt
    rw [timeRemaining_held hs ht]
    exact countByte_toNat (by rw [Option.getD_some]; omega)
  · rw [timeRemaining_none h]
    rfl

/-- Settles O13: the three results byte by byte. -/
theorem tableReadsTaken : Obligations.TableReadsTaken := by
  intro s hport
  refine ⟨fun lock hlock => ?_, fun l => ⟨standingByte s l, ?_, standingByte_cases s l⟩,
    ⟨rosterMarks s.au.replica.roster, ?_, fun k i => ?_⟩,
    ⟨slotRecords s, exec_readHolds hport, fun i => ⟨slotRecords_empty, fun hp r hr => ?_⟩⟩⟩
  · rw [exec_readLock hport, answerReadLock, lockArg_none hlock]
    rfl
  · rw [exec_readLock hport, answerReadLock, lockArg_lockByte]
    rfl
  · rw [← readRosterBytes_eq]
    exact exec_readRoster hport
  · rw [rosterMarks, tabulate_get]
    exact memberMarks_getLsbD _ _ i
  · rw [slotRecords_record hp hr]
    exact slotBytes_record r

end Sys2Proof.Machine
end

section
/-! PROOFS. CONFIGURE at the host port (R75, R186, R187, R206): the values that each byte of the record may have, the record that they spell,
and the three answers. -/

namespace Sys2Proof.Machine

variable {s : State} {b : Vector Byte 20}

/-! ### The bytes of the record -/

theorem periodOfCode_isSome (x : Byte) : (periodOfCode x).isSome = true ↔ x.toNat ≤ 3 := by
  have hcodes : x.toNat ≤ 3 ↔ x = 0x00 ∨ x = 0x01 ∨ x = 0x02 ∨ x = 0x03 := by bv_omega
  rw [hcodes, periodOfCode]
  split_ifs <;> simp_all

theorem periodOfCode_time {x : Byte} {p : BeaconPeriod} (h : periodOfCode x = some p) :
    some (periodTime p) = [5, 10, 20, 50][x.toNat]? := by
  unfold periodOfCode at h
  split_ifs at h <;> cases h <;> subst x <;> rfl

theorem flagArg_isSome (x : Byte) : (flagArg x).isSome = true ↔ x.toNat ≤ 1 := by
  have hcodes : x.toNat ≤ 1 ↔ x = 0x00 ∨ x = 0x01 := by bv_omega
  rw [hcodes, flagArg]
  split_ifs <;> simp_all

theorem flagArg_set {x : Byte} {f : Bool} (h : flagArg x = some f) : f = true ↔ x = 1 := by
  unfold flagArg at h
  split_ifs at h <;> cases h <;> subst x <;> decide

theorem bindingArg_isSome (x : Byte) : (bindingArg x).isSome = true ↔ x.toNat ≤ 63 ∨ x = 0xFF := by
  rw [bindingArg, lockArg]
  split_ifs <;> simp_all

/-- A byte that is accepted as a binding: the code for none, or the number of its lock (R206). -/
theorem bindingArg_join {x : Byte} (h : (bindingArg x).isSome = true) :
    ((bindingArg x).join = none ↔ x = 0xFF) ∧ ∀ l, (bindingArg x).join = some l → l.val = x.toNat := by
  rw [bindingArg_isSome] at h
  by_cases hnone : x = 0xFF
  · simp [bindingArg, hnone]
  · have hlock : x.toNat ≤ 63 := h.resolve_right hnone
    simp only [bindingArg, lockArg, if_pos hlock, hnone, if_false, Option.map_some, iff_false]
    refine ⟨by simp, fun l hl => ?_⟩
    cases hl
    exact Nat.mod_eq_of_lt (by omega)

/-! ### The record -/

/-- The bindings that the grant bytes spell (R186, R206). -/
def grantsOf (b : Vector Byte 20) : Vector (Option Lock) 8 := tabulate fun i => (bindingArg b[4 + i.val]).join

/-- The bindings that the request bytes spell (R186, R206). -/
def requestsOf (b : Vector Byte 20) : Vector (Option Lock) 4 := tabulate fun i => (bindingArg b[12 + i.val]).join

/-- Every binding byte is accepted (R187, R206). -/
def bindingsInRange (b : Vector Byte 20) : Prop :=
  (∀ n : GrantLine, (bindingArg b[4 + n.val]).isSome = true) ∧ ∀ p : Pin, (bindingArg b[12 + p.val]).isSome = true

/-- The record of the 20 bytes with its period and its flag (R186). -/
def recordOf (b : Vector Byte 20) (period : BeaconPeriod) (rejoin : Bool) : ConfigRecord :=
  { period := period, quorum := b[1].toNat, guardTime := b[2].toNat, autoRejoin := rejoin, grants := grantsOf b,
    requests := requestsOf b, limits := tabulate fun p => b[16 + p.val] }

/-- The checks of R187 in the order in which the bytes are read, each of which gives RANGE. -/
theorem configArg_eq_some {c : ConfigRecord} : configArg b = some c ↔
    ∃ period rejoin, periodOfCode b[0] = some period ∧ flagArg b[3] = some rejoin ∧
      (1 ≤ b[1].toNat ∧ b[1].toNat ≤ 32 ∧ b[2].toNat ≤ 15) ∧ bindingsInRange b ∧ namesLockTwice (requestsOf b) = false ∧
      recordOf b period rejoin = c := by
  have hall : ((List.finRange 8).all (fun i => (bindingArg b[4 + i.val]).isSome) &&
      (List.finRange 4).all fun i => (bindingArg b[12 + i.val]).isSome) = true ↔ bindingsInRange b := by
    simp [bindingsInRange]
  simp only [configArg, Fin.getElem_fin, tabulate_getElem]
  cases hperiod : periodOfCode b[0] with
  | none => simp
  | some period =>
    cases hflag : flagArg b[3] with
    | none => simp
    | some rejoin =>
      simp only [Option.ite_none_right_eq_some, Option.ite_none_left_eq_some, hall, Bool.not_eq_true, Option.some.injEq,
        exists_eq_left', exists_and_left]
      rfl

/-! ### The values that CONFIGURE accepts -/

/-- Two bytes that are accepted as bindings name the same lock, or both none, only if they are equal (R206). -/
theorem bindingArg_join_injective {x y : Byte} (hx : (bindingArg x).isSome = true) (hy : (bindingArg y).isSome = true)
    (h : (bindingArg x).join = (bindingArg y).join) : x = y := by
  obtain ⟨xnone, xlock⟩ := bindingArg_join hx
  obtain ⟨ynone, ylock⟩ := bindingArg_join hy
  cases hl : (bindingArg x).join with
  | none => rw [xnone.mp hl, ynone.mp (h ▸ hl)]
  | some l => exact BitVec.eq_of_toNat_eq ((xlock l hl).symm.trans (ylock l (h ▸ hl)))

theorem namesLockTwice_eq_false {v : Vector (Option Lock) 4} :
    namesLockTwice v = false ↔ ∀ p q : Pin, p ≠ q → v[p] = v[q] → v[p] = none := by
  simp only [namesLockTwice, List.any_eq_false, List.mem_finRange, true_implies, Bool.not_eq_true, Bool.and_eq_false_iff,
    bne_eq_false_iff_eq, Option.isSome_eq_false_iff, Option.isNone_iff_eq_none, beq_eq_false_iff_ne]
  exact forall₂_congr fun p q => by tauto

/-- No lock is bound to two request inputs (R187). -/
theorem requestsOf_distinct (h : bindingsInRange b) : namesLockTwice (requestsOf b) = false ↔
    ∀ p q : Pin, p ≠ q → b[12 + p.val] = b[12 + q.val] → b[12 + p.val] = 0xFF := by
  obtain ⟨-, hpins⟩ := h
  rw [namesLockTwice_eq_false]
  refine forall₃_congr fun p q _ => ?_
  simp only [requestsOf, tabulate_get]
  rw [(bindingArg_join (hpins p)).1]
  refine imp_congr_left ⟨bindingArg_join_injective (hpins p) (hpins q), fun heq => ?_⟩
  simp only [heq]

/-- The binding bytes lie in one row, the grants before the requests (R186). -/
theorem bindingsInRange_iff :
    bindingsInRange b ↔ ∀ i : Fin 12, b[4 + i.val].toNat ≤ 63 ∨ b[4 + i.val] = 0xFF := by
  simp only [bindingsInRange, bindingArg_isSome]
  constructor
  · rintro ⟨hgrants, hrequests⟩ i
    by_cases hi : i.val < 8
    · exact hgrants ⟨i.val, hi⟩
    · have hpin := hrequests ⟨i.val - 8, by omega⟩
      have hplace : 12 + (i.val - 8) = 4 + i.val := by omega
      simpa only [hplace] using hpin
  · intro h
    refine ⟨fun n => h ⟨n.val, by omega⟩, fun p => ?_⟩
    have hpin := h ⟨8 + p.val, by omega⟩
    have hplace : 4 + (8 + p.val) = 12 + p.val := by omega
    simpa only [hplace] using hpin

/-- The record is read from the bytes exactly where R187 accepts them. -/
theorem configArg_isSome : (∃ c, configArg b = some c) ↔ recordInRange b := by
  simp only [configArg_eq_some, recordInRange, ← periodOfCode_isSome, ← flagArg_isSome, ← bindingsInRange_iff,
    Option.isSome_iff_exists]
  constructor
  · rintro ⟨c, period, rejoin, hperiod, hflag, ⟨hlow, hhigh, hguard⟩, hbindings, htwice, -⟩
    exact ⟨⟨period, hperiod⟩, hlow, hhigh, hguard, ⟨rejoin, hflag⟩, hbindings, (requestsOf_distinct hbindings).mp htwice⟩
  · rintro ⟨⟨period, hperiod⟩, hlow, hhigh, hguard, ⟨rejoin, hflag⟩, hbindings, hdistinct⟩
    exact ⟨_, period, rejoin, hperiod, hflag, ⟨hlow, hhigh, hguard⟩, hbindings,
      (requestsOf_distinct hbindings).mpr hdistinct, rfl⟩

/-! ### The answers -/

theorem exec_configure (hport : portOpen s = true) :
    exec (.configureCommand b) s = .next (holdResult (answerConfigure b (s.received .configure))) :=
  congrArg Host.Outcome.next (takeCommand_received _ hport rfl (by simp [argumentBytes]) (by simp))

/-- Settles O5: by the checks of R187, in their order. -/
theorem configureChecksAndStores : Obligations.ConfigureChecksAndStores := by
  intro b s hport
  have hsc : (s.received .configure).sc = s.sc := rfl
  rw [exec_configure hport, answerConfigure, hsc]
  refine ⟨fun hstate => ?_, fun hstate hrange => ?_, fun hstate hrange => ?_⟩
  · rw [if_neg hstate]
    rfl
  · have hnone : configArg b = none := Option.eq_none_iff_forall_ne_some.mpr fun c hc => hrange (configArg_isSome.mp ⟨c, hc⟩)
    rw [if_pos hstate, hnone]
    rfl
  · obtain ⟨c, hc⟩ := configArg_isSome.mpr hrange
    obtain ⟨period, rejoin, hperiod, hflag, -, ⟨hgrants, hrequests⟩, -, rfl⟩ := configArg_eq_some.mp hc
    refine ⟨recordOf b period rejoin, ?_, periodOfCode_time hperiod, rfl, rfl, flagArg_set hflag, fun n => ?_, fun p => ?_⟩
    · rw [if_pos hstate, hc]
      rfl
    · simp only [recordOf, grantsOf, tabulate_get]
      exact bindingArg_join (hgrants n)
    · simp only [recordOf, requestsOf, tabulate_get, and_true]
      exact bindingArg_join (hrequests p)

end Sys2Proof.Machine
end

section
/-! PROOFS. Every command answers a next state, leaves the queue of waiting commands, and but for the end of a hard reset keeps the straps. -/

namespace Sys2Proof.Machine

variable {s t : State}

/-- The queue of waiting commands and the sampled bit rate are as they were. -/
structure State.KeepsQueue (s t : State) : Prop where
  pending : t.pending = s.pending
  bitRate : t.bitRate = s.bitRate

theorem State.KeepsQueue.refl (s : State) : s.KeepsQueue s := ⟨rfl, rfl⟩

/-! ### Commands of the host port -/

/-- The bytes of a command and the result held for it change the host port alone, so the block that acts decides. -/
theorem takeTransaction_keepsQueue {bytes : List Byte} {act : State → Answer} (hact : ∀ w : State, w.KeepsQueue (act w).1)
    (s : State) : s.KeepsQueue (takeTransaction bytes act s) := by
  unfold takeTransaction
  split
  · obtain ⟨hpending, hrate⟩ := hact (s.withHp (bytes.foldl receiveByte s.hp))
    exact ⟨hpending, hrate⟩
  · exact .refl s

theorem onLock_keepsQueue {act : Lock → State → Answer} (lock : Byte)
    (hact : ∀ (l : Lock) (w : State), w.KeepsQueue (act l w).1) (s : State) : s.KeepsQueue (onLock lock act s).1 := by
  unfold onLock
  split
  · exact .refl s
  · (repeat' split) <;> first | exact hact _ s | exact .refl s

theorem answerConfigure_keepsQueue (record : Vector Byte 20) (s : State) : s.KeepsQueue (answerConfigure record s).1 := by
  unfold answerConfigure
  (repeat' split) <;> exact ⟨rfl, rfl⟩

theorem answerJoin_keepsQueue (s : State) : s.KeepsQueue (answerJoin s).1 := by
  unfold answerJoin
  split <;> exact ⟨rfl, rfl⟩

theorem answerLeave_keepsQueue (s : State) : s.KeepsQueue (answerLeave s).1 := by
  unfold answerLeave
  (repeat' split) <;> constructor <;> simp [answer, leaveBus, abandonJoin, purgeRequests]

theorem softReset_keepsQueue (s : State) : s.KeepsQueue (softReset s) := by constructor <;> simp [softReset]

theorem answerClaim_keepsQueue (lock mode limit : Byte) (s : State) : s.KeepsQueue (answerClaim lock mode limit s).1 := by
  unfold answerClaim
  split
  · exact .refl s
  · refine onLock_keepsQueue lock (fun l w => ?_) s
    unfold claimLock
    (repeat' split) <;> constructor <;> simp [answer]

theorem yieldLock_keepsQueue (l : Lock) (s : State) : s.KeepsQueue (yieldLock l s).1 := by
  unfold yieldLock
  (repeat' split) <;> constructor <;> simp [answer]

theorem withdrawLock_keepsQueue (l : Lock) (s : State) : s.KeepsQueue (withdrawLock l s).1 := by
  unfold withdrawLock
  (repeat' split) <;> constructor <;> simp [answer]

theorem renewLock_keepsQueue (l : Lock) (s : State) : s.KeepsQueue (renewLock l s).1 := by
  unfold renewLock
  (repeat' split) <;> constructor <;> simp [answer]

theorem answerReadLock_keepsQueue (lock : Byte) (s : State) : s.KeepsQueue (answerReadLock lock s).1 := by
  unfold answerReadLock
  split <;> exact .refl s

theorem answerReadNotice_keepsQueue (s : State) : s.KeepsQueue (answerReadNotice s).1 := by
  unfold answerReadNotice
  split <;> exact .refl s

/-! ### Every command -/

/-- No command faults or is refused by the model (log entry 25). -/
theorem exec_completes (c : Instr) (s : State) : ∃ t, exec c s = .next t := by
  cases c <;> exact ⟨_, rfl⟩

/-- The end of a hard reset samples the straps, whatever commands wait (R209). -/
theorem exec_hardResetEnd_pending {straps : Station} {rate : BitVec 2} (h : exec (.hardResetEnd straps rate) s = .next t) :
    t.pending = s.pending := by
  cases h
  split <;> rfl

/-- The block of a port command keeps queue and rate; every other command ends in operations whose frame lemmas say so. -/
theorem exec_keepsQueue {c : Instr} (hend : ∀ straps rate, c ≠ .hardResetEnd straps rate) (h : exec c s = .next t) :
    s.KeepsQueue t := by
  cases c with
  | hardReset => cases h; exact ⟨rfl, rfl⟩
  | hardResetEnd straps rate => exact absurd rfl (hend straps rate)
  | configureCommand record => cases h; exact takeTransaction_keepsQueue (answerConfigure_keepsQueue record) s
  | joinCommand => cases h; exact takeTransaction_keepsQueue answerJoin_keepsQueue s
  | leaveCommand => cases h; exact takeTransaction_keepsQueue answerLeave_keepsQueue s
  | resetCommand => cases h; exact takeTransaction_keepsQueue softReset_keepsQueue s
  | claimCommand lock mode limit => cases h; exact takeTransaction_keepsQueue (answerClaim_keepsQueue lock mode limit) s
  | yieldCommand lock => cases h; exact takeTransaction_keepsQueue (onLock_keepsQueue lock yieldLock_keepsQueue) s
  | withdrawCommand lock => cases h; exact takeTransaction_keepsQueue (onLock_keepsQueue lock withdrawLock_keepsQueue) s
  | renewCommand lock => cases h; exact takeTransaction_keepsQueue (onLock_keepsQueue lock renewLock_keepsQueue) s
  | readLockCommand lock => cases h; exact takeTransaction_keepsQueue (answerReadLock_keepsQueue lock) s
  | readRosterCommand => cases h; exact takeTransaction_keepsQueue State.KeepsQueue.refl s
  | readHoldsCommand => cases h; exact takeTransaction_keepsQueue State.KeepsQueue.refl s
  | readNoticeCommand => cases h; exact takeTransaction_keepsQueue answerReadNotice_keepsQueue s
  | readStatusCommand => cases h; exact takeTransaction_keepsQueue (fun _ => ⟨rfl, rfl⟩) s
  | unknownCommand code =>
    cases h
    split
    · exact takeTransaction_keepsQueue State.KeepsQueue.refl s
    · exact .refl s
  | _ => cases h; (repeat' split) <;> constructor <;> simp

/-- The straps are sampled at the end of a hard reset alone; a hard reset keeps those of the last one (R209). -/
theorem exec_station {c : Instr} (hend : ∀ straps rate, c ≠ .hardResetEnd straps rate) (h : exec c s = .next t) :
    t.station = s.station := by
  by_cases hreset : c = .hardReset
  · subst hreset
    cases h
    rfl
  · exact (exec_place hreset hend h).2

/-- Settles O3: no arm of exec stops, and each operation's frame keeps the queue and the straps. -/
theorem everyCommandCompletes : Obligations.EveryCommandCompletes := by
  intro c s
  obtain ⟨t, h⟩ := exec_completes c s
  refine ⟨t, h, ?_, fun hend => ⟨exec_station hend h, (exec_keepsQueue hend h).bitRate⟩⟩
  cases c with
  | hardResetEnd => exact exec_hardResetEnd_pending h
  | _ => exact (exec_keepsQueue (fun _ _ => Instr.noConfusion) h).pending

end Sys2Proof.Machine
end
